-- ==== Sys2Proof/Word.lean ====
section
/-! DEFINITION. The word types of the block: a register and a code. -/

namespace Sys2Proof

/-- A register, a timestamp or a duration: 32 bits (D3, D22). -/
abbrev Word := BitVec 32

/-- `TX_CODE`, `MB_CODE`, `POLL_CODE`: 64 bits (D18, D30). -/
abbrev Code := BitVec 64

end Sys2Proof
end

