-- ==== Sys2Proof/Syntax.lean ====
section
/-! DEFINITION. The commands of 30_encoding.md rule R68, one constructor per row of the opcode table. -/

namespace Sys2Proof

/-- A command. No command has an operand field (R68). -/
inductive Instr where
  | nop
  | enableTx
  | disableTx
  | sendCode
  | sendBits
  | enableRx
  | disableRx
  | poll
  deriving DecidableEq, Repr

end Sys2Proof
end

