-- ==== Sys2Proof/Decode.lean ====
section
/-! DEFINITION. The command word of 30_encoding.md rules R66-R69: decoder, then encoder. -/

namespace Sys2Proof

/-- Why a command word is illegal (R69). -/
inductive DecodeError where
  /-- `v[31:4] ≠ 0`. -/
  | reservedBits
  /-- `v[3:0] ≥ 8`. -/
  | reservedOp
  deriving DecidableEq, Repr

/-- `OP(v[3:0])`, the table of R68. -/
def decodeOp (op : BitVec 4) : Except DecodeError Instr :=
  match op.toNat with
  | 0 => .ok .nop
  | 1 => .ok .enableTx
  | 2 => .ok .disableTx
  | 3 => .ok .sendCode
  | 4 => .ok .sendBits
  | 5 => .ok .enableRx
  | 6 => .ok .disableRx
  | 7 => .ok .poll
  | _ => .error .reservedOp

/-- `Decode(v)` (R69). -/
def decode (v : Word) : Except DecodeError Instr :=
  if v.extractLsb' 4 28 ≠ 0#28 then .error .reservedBits else decodeOp (v.extractLsb' 0 4)

/-- The OP column of R68. -/
def Instr.op : Instr → BitVec 4
  | .nop => 0x0#4
  | .enableTx => 0x1#4
  | .disableTx => 0x2#4
  | .sendCode => 0x3#4
  | .sendBits => 0x4#4
  | .enableRx => 0x5#4
  | .disableRx => 0x6#4
  | .poll => 0x7#4

/-- The command word of a command: RSV = 0, then OP (R66). -/
def encode (i : Instr) : Word := 0#28 ++ i.op

/-- The decoder's answer on a row of the opcode table: a command is one 32-bit word (R66, R70), so a row of more bits is
no command (log 18), and the bits above `nbits` are 0. -/
def decodeTableWord (nbits w : Nat) : Option Instr :=
  if nbits ≤ 32 then (decode (BitVec.ofNat 32 (w % 2 ^ nbits))).toOption else none

end Sys2Proof
end

