-- ==== Sys2Proof/Config.lean ====
section
/-! DEFINITION. What is fixed for one instance of the block: the build constants of 00_scope.md rule R6, the shape of
the protocol table, and the OPEN parameters as constants without a body. -/

namespace Sys2Proof

/-- One row of the protocol table: the unit in microseconds and six multipliers of it (R81). -/
structure ProtoRow where
  pulseUnitUs : BitVec 16
  syncHigh : BitVec 8
  syncLow : BitVec 8
  zeroHigh : BitVec 8
  zeroLow : BitVec 8
  oneHigh : BitVec 8
  oneLow : BitVec 8
  deriving DecidableEq, Repr

/-- The protocol table, rows 1 to 6 (R32, R81). There is no row 0 and no row 7. -/
structure ProtoTable where
  row1 : ProtoRow
  row2 : ProtoRow
  row3 : ProtoRow
  row4 : ProtoRow
  row5 : ProtoRow
  row6 : ProtoRow
  deriving DecidableEq, Repr

/-- The OPEN parameters that a rule reads (R6): the table, the latency of a send and the window's base address. -/
structure Params where
  ptab : ProtoTable
  txLat : Word
  base : Nat
  deriving DecidableEq, Repr

namespace Config

/-- `TICK_THRESHOLD`: an interval up to this many microseconds is noise (R6, D25). -/
abbrev tickThreshold : Nat := 300

/-- `SYNC_THRESHOLD`: an interval above this many microseconds is a frame boundary (R6, D25). -/
abbrev syncThreshold : Nat := 15000

/-- `MAX_CHANGES` (R6, D25). -/
abbrev maxChanges : Nat := 67

/-- `TX_SCALE`, the scale factor of transmit durations (R6, R85). -/
abbrev txScale : Nat := 3

/-- `MAX_BITLEN` (R6, D16). -/
abbrev maxBitLen : Nat := 64

/-- `P6_BASE_WIDTH`: bits of a protocol-6 code before its expansion (R6, R92). -/
abbrev p6BaseWidth : Nat := 32

/-- The size of the register window in bytes (R49). -/
abbrev windowSize : Nat := 0x400

/-- `BASE` is a multiple of this (R6, D2). -/
abbrev windowAlign : Nat := 0x400

/-- Free value: the table's open multipliers, by row and field (R83; log 4). -/
opaque freeMultiplier : Nat → Nat → BitVec 8

/-- Free value: the table's open pulse units, by row (R83; log 4). -/
opaque freeUnit : Nat → BitVec 16

/-- Free value: `TX_LAT` (R6, D34; log 5). -/
opaque freeTxLat : Word

/-- Free value: `BASE` in units of 1 KiB (R6, D2; log 6). -/
opaque freeBaseIndex : Nat

/-- The constraint of R82, at least 1, put on a free field; every value from 1 up stays possible. -/
def atLeastOne {w : Nat} (v : BitVec w) : BitVec w := if v = 0#w then 1#w else v

/-- A row of which the source gives nothing (R83). -/
def openRow (p : Nat) : ProtoRow where
  pulseUnitUs := atLeastOne (freeUnit p)
  syncHigh := atLeastOne (freeMultiplier p 1)
  syncLow := atLeastOne (freeMultiplier p 2)
  zeroHigh := atLeastOne (freeMultiplier p 3)
  zeroLow := atLeastOne (freeMultiplier p 4)
  oneHigh := atLeastOne (freeMultiplier p 5)
  oneLow := atLeastOne (freeMultiplier p 6)

/-- Row 1: five fields from the source, `one_high` and `one_low` open (R83). -/
def row1 : ProtoRow :=
  { openRow 1 with pulseUnitUs := 350#16, syncHigh := 1#8, syncLow := 31#8, zeroHigh := 1#8, zeroLow := 3#8 }

/-- `PTAB` (R81-R83). -/
def ptab : ProtoTable where
  row1 := row1
  row2 := openRow 2
  row3 := openRow 3
  row4 := openRow 4
  row5 := openRow 5
  row6 := openRow 6

/-- The parameters of this instance. -/
def params : Params where
  ptab := ptab
  txLat := freeTxLat
  base := windowAlign * freeBaseIndex

end Config
end Sys2Proof
end

