-- ==== Sys2Proof/Machine/State.lean ====
section
/-! DEFINITION. The state of the block (10_state.md), plain data; its reset value; the reasons a step can stop. -/

namespace Sys2Proof.Machine

/-- The results of a command, held in `ERR` (60_exceptions.md R132). Codes 8-15 are never produced. -/
inductive ErrCode where
  | ok
  | notEnabled
  | invalidProtocol
  | roleConflict
  | invalidConfig
  | codeRange
  | busy
  | illegalCmd
  deriving DecidableEq, Repr

/-- One stretch of constant pin level with a duration in microseconds (R12, R23). -/
structure Segment where
  level : Bool
  dur : Word
  deriving DecidableEq, Repr

/-- The configuration fields (R16). -/
structure Cfg where
  proto : BitVec 3
  pulseOverride : BitVec 16
  txRepeat : BitVec 16
  bitLength : BitVec 7
  tol : BitVec 7
  gpioId : BitVec 8
  minTrans : BitVec 8
  rejectZero : Bool
  deriving DecidableEq, Repr

/-- The transmit engine: segments not yet started, microseconds left of the one on the pin, ticks before the first (R23). -/
structure Engine where
  txq : List Segment
  segLeft : Word
  txWait : Word
  deriving DecidableEq, Repr

/-- The pad: level driven, drive enable, level seen (R24). -/
structure Pin where
  out : Bool
  oe : Bool
  inp : Bool
  deriving DecidableEq, Repr

/-- The capture state and the capture buffer (R25-R28). -/
structure Capture where
  lastTs : Word
  changeCount : BitVec 7
  syncCount : Word
  buf : Vector Word 68
  deriving DecidableEq, Repr

/-- A code with its valid bit and timestamp: the mailbox (R29), and the poll result (R30). -/
structure CodeSlot where
  valid : Bool
  code : Code
  ts : Word
  deriving DecidableEq, Repr

/-- Where a host access goes: an offset in the window, as the rules write it, or an address on the bus (R6, R51; log 6). -/
inductive Target where
  | offset (off : Nat)
  | address (addr : Nat)
  deriving DecidableEq, Repr

/-- What a host access does: read, or write of data. -/
inductive AccessKind where
  | read
  | write (data : Word)
  deriving DecidableEq, Repr

/-- A host access: target, width in bytes, kind (R51, R67). -/
structure Access where
  target : Target
  nbytes : Nat
  kind : AccessKind
  deriving DecidableEq, Repr

/-- What the bus gets back from an access: a bus error comes with read data 0 when the access was a read (R51). -/
inductive BusResp where
  | written
  | data (v : Word)
  | writeError
  | readError (v : Word)
  deriving DecidableEq, Repr

/-- One step of one agent (R10): a host access, the pad taking a level, the timer's tick, the reset input. -/
inductive Event where
  | access (a : Access)
  | pad (level : Bool)
  | tick
  | reset
  deriving DecidableEq, Repr

/-- The state of one instance. `par` is constant. `busResp` and `inputs` are the model's own (log 8, log 1). -/
structure State where
  /-- The parameters; no step changes them (R32). -/
  par : Params
  cfg : Cfg
  txEn : Bool
  rxEn : Bool
  busy : Bool
  err : ErrCode
  txCode : Code
  eng : Engine
  pin : Pin
  cap : Capture
  mb : CodeSlot
  poll : CodeSlot
  now : Word
  /-- What the bus was answered in the step just taken, if that step was a host access. -/
  busResp : Option BusResp
  /-- What the agents do next, in order. -/
  inputs : List Event
  deriving DecidableEq, Repr

/-- Why the block stops. None arises from a state that meets `State.Inv`; the spec gives none of the three an effect. -/
inductive Fault where
  /-- Raised by the EDGE step's DECODE when `PROTO` names no row of the table (R114 says it always does). Safe. -/
  | decodeWithoutRow
  /-- Raised by the EDGE step's DECODE when a pair lies outside the 68 slots (R122 says none does). Safe. -/
  | decodeOutsideBuffer
  /-- Raised by the timer's tick when `SEG_LEFT` is 0 and would be counted down (R98 says it is not). Safe. -/
  | segmentUnderflow
  deriving DecidableEq, Repr

/-- Why a command is refused by the model. -/
inductive Refusal where
  /-- Raised by `exec` for a command without a meaning. Safe. No command of this model is one. -/
  | notModelled (mnemonic : String)
  deriving DecidableEq, Repr

/-- An empty mailbox or poll result: all 0 (R29, R30). -/
def CodeSlot.empty : CodeSlot := { valid := false, code := 0#64, ts := 0#32 }

/-- The capture state as reset and ClearRx leave it (R48, R103). -/
def Capture.cleared : Capture :=
  { lastTs := 0#32, changeCount := 0#7, syncCount := 0#32, buf := Vector.replicate 68 0#32 }

/-- The engine with no send in progress (R48). -/
def Engine.idle : Engine := { txq := [], segLeft := 0#32, txWait := 0#32 }

/-- The configuration after reset (R48). -/
def Cfg.reset : Cfg :=
  { proto := 0#3, pulseOverride := 0#16, txRepeat := 0#16, bitLength := 0#7, tol := 0#7, gpioId := 0#8,
    minTrans := 6#8, rejectZero := true }

/-- The block right after power-on (R48, R149). The pad's level is an input; its value here is log 3's. -/
def State.reset : State where
  par := Config.params
  cfg := Cfg.reset
  txEn := false
  rxEn := false
  busy := false
  err := .ok
  txCode := 0#64
  eng := Engine.idle
  pin := { out := false, oe := false, inp := false }
  cap := Capture.cleared
  mb := CodeSlot.empty
  poll := CodeSlot.empty
  now := 0#32
  busResp := none
  inputs := []

end Sys2Proof.Machine
end

