-- ==== Sys2Proof/Machine/Operands.lean ====
section
/-! DEFINITION. The operands of the commands: the protocol row, the transmit unit, the bit pattern, the field writes. -/

namespace Sys2Proof.Machine

/-- `Lookup(p)` (R84): a row for p in 1..6, none for 0 and 7. -/
def lookup (t : ProtoTable) (p : BitVec 3) : Option ProtoRow :=
  match p.toNat with
  | 1 => some t.row1
  | 2 => some t.row2
  | 3 => some t.row3
  | 4 => some t.row4
  | 5 => some t.row5
  | 6 => some t.row6
  | _ => none

/-- Protocol 6, the one with an expansion and a sync before each repeat (R92, R97). -/
def isProto6 (p : BitVec 3) : Bool := p == 6#3

/-- The transmit unit U: the override where there is one, else the row's (R85). -/
def txUnit (c : Cfg) (r : ProtoRow) : Nat :=
  if c.pulseOverride ≠ 0#16 then c.pulseOverride.toNat else r.pulseUnitUs.toNat

/-- `[c[W−1], …, c[0]]`, most significant bit first (R92, R95). -/
def codeBits : Nat → Code → List Bool
  | 0, _ => []
  | w + 1, c => c.getLsbD w :: codeBits w c

/-- The protocol-6 substitution, 0 to "01" and 1 to "10" (R92). -/
def expandP6 (bits : List Bool) : List Bool := bits.flatMap fun b => [b, !b]

/-- W of SEND_CODE: 32 for protocol 6, else BIT_LENGTH (R92, R94). -/
def sendCodeWidth (c : Cfg) : Nat := if isProto6 c.proto then Config.p6BaseWidth else c.bitLength.toNat

/-- The pattern of SEND_CODE (R92). -/
def sendCodePattern (c : Cfg) (code : Code) : List Bool :=
  if isProto6 c.proto then expandP6 (codeBits Config.p6BaseWidth code) else codeBits c.bitLength.toNat code

/-- The pattern of SEND_BITS: no expansion for any protocol (R95). -/
def sendBitsPattern (c : Cfg) (code : Code) : List Bool := codeBits c.bitLength.toNat code

/-- `TX_CODE[31:0] <- v` (R78). -/
def setCodeLo (c : Code) (v : Word) : Code := c.extractLsb' 32 32 ++ v

/-- `TX_CODE[63:32] <- v` (R78). -/
def setCodeHi (c : Code) (v : Word) : Code := v ++ c.extractLsb' 0 32

/-- The low half of a 64-bit quantity (R50). -/
def codeLo (c : Code) : Word := c.extractLsb' 0 32

/-- The high half of a 64-bit quantity (R50). -/
def codeHi (c : Code) : Word := c.extractLsb' 32 32

end Sys2Proof.Machine
end

