-- ==== Sys2Proof/Machine/Ops.lean ====
section
/-! DEFINITION. The shared operations: raising an error (this hardware's only exception), running a command under the
common checks, clearing the receive side, starting a send, and chaining outcomes. -/

namespace Sys2Proof.Machine

/-- The outcome of a step of this machine. -/
abbrev Result := Host.Outcome State Fault Refusal

/-- Go on from a next outcome; a stop stays a stop. -/
def andThen {α β : Type} (o : Host.Outcome α Fault Refusal) (f : α → Host.Outcome β Fault Refusal) :
    Host.Outcome β Fault Refusal :=
  match o with
  | .next s => f s
  | .fault r => .fault r
  | .refused r => .refused r

/-- `x[ERR] <- code`. As `raise Err(code)` it is the whole effect of a rejected command: no other state changes, nothing
is saved, no mode changes, control goes nowhere, and so there is no return (R9, R75, R133, R139, R140). -/
def setErr (code : ErrCode) (s : State) : State := { s with err := code }

/-- A legal command (R74): BUSY comes before its own checks; a command that is not rejected writes OK last; a rejected
one writes its code and nothing else (R75). `body` answers the state before `x[ERR] <- OK`, or the error raised. -/
def runCommand (body : State → Except ErrCode State) (s : State) : Result :=
  if s.busy then .next (setErr .busy s)
  else
    match body s with
    | .ok t => .next (setErr .ok t)
    | .error c => .next (setErr c s)

/-- `ClearRx()` (R103). -/
def clearRx (s : State) : State := { s with cap := Capture.cleared, mb := CodeSlot.empty }

/-- A segment of a waveform: multiplier × U × 3 microseconds (R85, R98). The product is below 2^26 (R85; log 19). -/
def waveSegment (level : Bool) (mult : BitVec 8) (unit : Nat) : Segment :=
  { level := level, dur := BitVec.ofNat 32 (mult.toNat * unit * Config.txScale) }

/-- `wave(h, l)` (R96, R98). -/
def wave (unit : Nat) (h l : BitVec 8) : List Segment := [waveSegment true h unit, waveSegment false l unit]

/-- The sync waveform of a row. -/
def syncWave (r : ProtoRow) (unit : Nat) : List Segment := wave unit r.syncHigh r.syncLow

/-- The waveform of one bit of the pattern (R97). -/
def bitWave (r : ProtoRow) (unit : Nat) (b : Bool) : List Segment :=
  if b then wave unit r.oneHigh r.oneLow else wave unit r.zeroHigh r.zeroLow

/-- One repeat of the frame: a sync first for protocol 6 only, the bits, the closing sync (R97). -/
def frame (p6 : Bool) (r : ProtoRow) (unit : Nat) (pat : List Bool) : List Segment :=
  (if p6 then syncWave r unit else []) ++ pat.flatMap (bitWave r unit) ++ syncWave r unit

/-- `Frames(p, row, pat, R)` (R97). -/
def frames (p6 : Bool) (r : ProtoRow) (unit : Nat) (pat : List Bool) : Nat → List Segment
  | 0 => []
  | n + 1 => frame p6 r unit pat ++ frames p6 r unit pat n

/-- Take the next segment onto the pin: `(lvl, d) <- pop(TXQ); PIN_OUT <- lvl; SEG_LEFT <- d` (R96, R99). -/
def startSegment (seg : Segment) (rest : List Segment) (s : State) : State :=
  { s with eng := { s.eng with txq := rest, segLeft := seg.dur }, pin := { s.pin with out := seg.level } }

/-- `TxStart` with its segments (R96): the queue is latched; with no latency the first segment is on the pin at once. -/
def txStart (segs : List Segment) (s : State) : State :=
  let t : State := { s with eng := { txq := segs, segLeft := 0#32, txWait := s.par.txLat }, busy := true }
  if s.par.txLat = 0#32 then
    match segs with
    | [] => t
    | seg :: rest => startSegment seg rest t
  else t

/-- The segments a send latches: everything its waveform depends on (R96). -/
def sendSegments (s : State) (r : ProtoRow) (pat : List Bool) : List Segment :=
  frames (isProto6 s.cfg.proto) r (txUnit s.cfg r) pat s.cfg.txRepeat.toNat

/-- The checks of SEND_CODE and SEND_BITS in their order, then the start of the send (R94, R95): `width` is the frame's
width and `pat` its pattern. -/
def startSend (width : Nat) (pat : List Bool) (s : State) : Except ErrCode State :=
  if s.txEn = false then .error .notEnabled
  else
    match lookup s.par.ptab s.cfg.proto with
    | none => .error .invalidProtocol
    | some r =>
      if s.cfg.txRepeat = 0#16 then .error .invalidConfig
      else if width < 1 ∨ Config.maxBitLen < width then .error .invalidConfig
      else if width < Config.maxBitLen ∧ 2 ^ width ≤ s.txCode.toNat then .error .codeRange
      else .ok (txStart (sendSegments s r pat) s)

end Sys2Proof.Machine
end

