-- ==== Sys2Proof/Machine/CommandUnit.lean ====
section
/-! DEFINITION. 40_command_unit.md: NOP. -/

namespace Sys2Proof.Machine

/-- NOP (R76). -/
def execNop (s : State) : Result := runCommand (fun t => .ok t) s

end Sys2Proof.Machine
end

