-- ==== Sys2Proof/Machine/FrameDecoder.lean ====
section
/-! DEFINITION. 44_frame_decoder.md: DECODE, which runs inside an EDGE step only. -/

namespace Sys2Proof.Machine

/-- `delay` (R115). -/
def frameDelay (r : ProtoRow) (sync : Word) : Nat := sync.toNat / r.syncLow.toNat

/-- `tol` (R116). -/
def frameTol (delay : Nat) (tolPercent : BitVec 7) : Nat := delay * tolPercent.toNat / 100

/-- `|d − t| ≤ tol` on exact integers (R117). -/
def matchesTemplate (tol : Nat) (d : Word) (t : Nat) : Bool := decide (d.toNat ≤ t + tol ∧ t ≤ d.toNat + tol)

/-- The bit of one (high, low) pair: zero is tried first, both components of one template must match (R118, R119). -/
def pairBit (r : ProtoRow) (delay tol : Nat) (h l : Word) : Option Bool :=
  if matchesTemplate tol h (delay * r.zeroHigh.toNat) && matchesTemplate tol l (delay * r.zeroLow.toNat) then
    some false
  else if matchesTemplate tol h (delay * r.oneHigh.toNat) && matchesTemplate tol l (delay * r.oneLow.toNat) then
    some true
  else none

/-- What a walk of the pairs ends with. -/
inductive Walk where
  | code (c : Nat)
  | mismatch
  | outside
  deriving DecidableEq, Repr

/-- The pair walk of R118: `pairs` pairs to go, from slot `i`, bits appended on the right. -/
def walkPairs (r : ProtoRow) (delay tol : Nat) (buf : Vector Word 68) : (pairs i code : Nat) → Walk
  | 0, _, code => .code code
  | k + 1, i, code =>
    match buf[i]?, buf[i + 1]? with
    | some h, some l =>
      match pairBit r delay tol h l with
      | some b => walkPairs r delay tol buf k (i + 2) (2 * code + b.toNat)
      | none => .mismatch
    | _, _ => .outside

/-- The acceptance gate (R120). -/
def gate (c : Cfg) (n code : Nat) : Bool := decide (c.minTrans.toNat < n) && (!c.rejectZero || code != 0)

/-- Publishing to the mailbox, whatever it held (R120, R127). -/
def publish (code : Nat) (ts : Word) (s : State) : State :=
  { s with mb := { valid := true, code := BitVec.ofNat 64 code, ts := ts } }

/-- `DECODE(N, ts)` (R118): floor(N/2) pairs from slot 1. Failure is silent (R121). -/
def decodeFrame (n : Nat) (ts : Word) (s : State) : Result :=
  match lookup s.par.ptab s.cfg.proto with
  | none => .fault .decodeWithoutRow
  | some r =>
    let delay := frameDelay r s.cap.buf[0]
    match walkPairs r delay (frameTol delay s.cfg.tol) s.cap.buf (n / 2) 1 0 with
    | .code c => .next (if gate s.cfg n c then publish c ts s else s)
    | .mismatch => .next s
    | .outside => .fault .decodeOutsideBuffer

end Sys2Proof.Machine
end

