-- ==== Sys2Proof/Machine/EdgeCapture.lean ====
section
/-! DEFINITION. 43_edge_capture.md: ENABLE_RX, DISABLE_RX, and the EDGE step of a pad transition. -/

namespace Sys2Proof.Machine

/-- The effect of ENABLE_RX (R103). -/
def enableRxBody (s : State) : Except ErrCode State :=
  if s.txEn then .error .roleConflict
  else if s.rxEn then .ok s
  else
    match lookup s.par.ptab s.cfg.proto with
    | none => .error .invalidProtocol
    | some _ => if 100 < s.cfg.tol.toNat then .error .invalidConfig else .ok (clearRx { s with rxEn := true })

/-- ENABLE_RX (R103). -/
def execEnableRx (s : State) : Result := runCommand enableRxBody s

/-- The effect of DISABLE_RX (R104). -/
def disableRxBody (s : State) : Except ErrCode State :=
  if s.rxEn then .ok (clearRx { s with rxEn := false }) else .ok s

/-- DISABLE_RX (R104). -/
def execDisableRx (s : State) : Result := runCommand disableRxBody s

/-- The duration of an edge at `ts` (R107): modulo 2^32. -/
def edgeDuration (ts : Word) (s : State) : Word := ts - s.cap.lastTs

/-- The adjusted count N, an integer, −1 when the count is 0 (R106, D50). -/
def adjustedCount (s : State) : Int := (s.cap.changeCount.toNat : Int) - 1

/-- `SYNC_COUNT <- SYNC_COUNT + 1` (R109). -/
def countSync (s : State) : State := { s with cap := { s.cap with syncCount := s.cap.syncCount + 1#32 } }

/-- The sync interval opens the next frame: slot 0, count 1, and the edge's time (R109, R111). -/
def openFrame (d ts : Word) (s : State) : State :=
  { s with cap := { s.cap with buf := s.cap.buf.set 0 d, changeCount := 1#7, lastTs := ts } }

/-- The frame boundary of R109: the count goes up, DECODE if N > 1 on the buffer as it was, then the new frame. -/
def syncEdge (d ts : Word) (s : State) : Result :=
  andThen (if 1 < adjustedCount s then decodeFrame (adjustedCount s).toNat ts (countSync s) else .next (countSync s))
    fun t => .next (openFrame d ts t)

/-- The data half-pulse of R110: stored at the count, or the overflow reset, which stores nothing. -/
def dataEdge (d ts : Word) (s : State) : State :=
  if Config.maxChanges ≤ s.cap.changeCount.toNat then
    { s with cap := { s.cap with changeCount := 0#7, syncCount := 0#32, lastTs := ts } }
  else
    { s with
      cap := { s.cap with
        buf := s.cap.buf.setIfInBounds s.cap.changeCount.toNat d
        changeCount := s.cap.changeCount + 1#7
        lastTs := ts } }

/-- `EDGE(ts)` (R106): noise, else frame boundary, else data. -/
def edge (ts : Word) (s : State) : Result :=
  let d := edgeDuration ts s
  if d.toNat ≤ Config.tickThreshold then .next s
  else if Config.syncThreshold < d.toNat then syncEdge d ts s
  else .next (dataEdge d ts s)

/-- The pin environment puts a level on the pad: a transition while RX_EN = 1 is an EDGE event stamped NOW, anything else
none (R24, R105). -/
def padChange (level : Bool) (s : State) : Result :=
  let t : State := { s with pin := { s.pin with inp := level } }
  if s.rxEn ∧ level ≠ s.pin.inp then edge s.now t else .next t

end Sys2Proof.Machine
end

