-- ==== Sys2Proof/Machine/Mailbox.lean ====
section
/-! DEFINITION. 45_mailbox.md: POLL. -/

namespace Sys2Proof.Machine

/-- The effect of POLL: copy to the poll result, clear the mailbox (R126). -/
def pollBody (s : State) : Except ErrCode State := .ok { s with poll := s.mb, mb := CodeSlot.empty }

/-- POLL (R126). -/
def execPoll (s : State) : Result := runCommand pollBody s

end Sys2Proof.Machine
end

