-- ==== Sys2Proof/Machine/Transmitter.lean ====
section
/-! DEFINITION. 42_transmitter.md: ENABLE_TX, DISABLE_TX, SEND_CODE, SEND_BITS, and the timer's tick with the engine. -/

namespace Sys2Proof.Machine

/-- The effect of ENABLE_TX (R90). -/
def enableTxBody (s : State) : Except ErrCode State :=
  if s.rxEn then .error .roleConflict
  else if s.txEn then .ok s
  else .ok { s with txEn := true, pin := { s.pin with oe := true, out := false } }

/-- ENABLE_TX (R90). -/
def execEnableTx (s : State) : Result := runCommand enableTxBody s

/-- The effect of DISABLE_TX (R91). -/
def disableTxBody (s : State) : Except ErrCode State :=
  if s.txEn then .ok { s with txEn := false, pin := { s.pin with oe := false, out := false } } else .ok s

/-- DISABLE_TX (R91). -/
def execDisableTx (s : State) : Result := runCommand disableTxBody s

/-- SEND_CODE (R94). -/
def execSendCode (s : State) : Result :=
  runCommand (fun t => startSend (sendCodeWidth t.cfg) (sendCodePattern t.cfg t.txCode) t) s

/-- SEND_BITS (R95). -/
def execSendBits (s : State) : Result :=
  runCommand (fun t => startSend t.cfg.bitLength.toNat (sendBitsPattern t.cfg t.txCode) t) s

/-- The engine in another condition, the rest as it was. -/
def setEng (e : Engine) (s : State) : State := { s with eng := e }

/-- The end of a send: `BUSY <- 0; PIN_OUT <- 0` (R99). -/
def endSend (s : State) : State := { s with busy := false, pin := { s.pin with out := false } }

/-- `NOW <- (NOW + 1) mod 2^32` (R99, R31). -/
def advanceNow (s : State) : State := { s with now := s.now + 1#32 }

/-- The second half of a tick while BUSY (R99): at a boundary the next segment starts, or the send ends. -/
def segmentBoundary (s : State) : State :=
  if s.eng.txWait = 0#32 ∧ s.eng.segLeft = 0#32 then
    match s.eng.txq with
    | seg :: rest => startSegment seg rest s
    | [] => endSend s
  else s

/-- The engine's part of a tick (R99). `SEG_LEFT` of 0 is never counted down by the spec's rules (log 11). -/
def engineTick (s : State) : Result :=
  if s.busy = false then .next s
  else if s.eng.txWait ≠ 0#32 then
    .next (segmentBoundary (setEng { s.eng with txWait := s.eng.txWait - 1#32 } s))
  else if s.eng.segLeft = 0#32 then .fault .segmentUnderflow
  else .next (segmentBoundary (setEng { s.eng with segLeft := s.eng.segLeft - 1#32 } s))

/-- `Tick` (R99, R152): the timer and the engine in one atomic step. -/
def tick (s : State) : Result := engineTick (advanceNow s)

end Sys2Proof.Machine
end

