-- ==== Sys2Proof/Machine/Dispatch.lean ====
section
/-! DEFINITION. The dispatch of R74: one arm per command. -/

namespace Sys2Proof.Machine

def exec (i : Instr) (s : State) : Host.Outcome State Fault Refusal :=
  match i with
  | .nop => Sys2Proof.Machine.execNop s
  | .enableTx => Sys2Proof.Machine.execEnableTx s
  | .disableTx => Sys2Proof.Machine.execDisableTx s
  | .sendCode => Sys2Proof.Machine.execSendCode s
  | .sendBits => Sys2Proof.Machine.execSendBits s
  | .enableRx => Sys2Proof.Machine.execEnableRx s
  | .disableRx => Sys2Proof.Machine.execDisableRx s
  | .poll => Sys2Proof.Machine.execPoll s

end Sys2Proof.Machine
end

