-- ==== Sys2Proof/Machine/Flags.lean ====
section
/-! DEFINITION. The flags the host sees: the codes of `ERR`, the images of `STATUS` and `PIN_STAT`. -/

namespace Sys2Proof.Machine

/-- The code of a result (R132). -/
def ErrCode.code : ErrCode → BitVec 4
  | .ok => 0#4
  | .notEnabled => 1#4
  | .invalidProtocol => 2#4
  | .roleConflict => 3#4
  | .invalidConfig => 4#4
  | .codeRange => 5#4
  | .busy => 6#4
  | .illegalCmd => 7#4

/-- `STATUS` (R42): ERR in [11:8], MB_VALID 3, BUSY 2, RX_EN 1, TX_EN 0, the rest 0. -/
def statusImage (s : State) : Word :=
  0#20 ++ s.err.code ++ 0#4 ++ BitVec.ofBool s.mb.valid ++ BitVec.ofBool s.busy ++ BitVec.ofBool s.rxEn ++
    BitVec.ofBool s.txEn

/-- `PIN_STAT` (R45): PIN_IN 2, PIN_OE 1, PIN_OUT 0, the rest 0. -/
def pinStatImage (p : Pin) : Word :=
  0#29 ++ BitVec.ofBool p.inp ++ BitVec.ofBool p.oe ++ BitVec.ofBool p.out

end Sys2Proof.Machine
end

