-- ==== Sys2Proof/Machine/Registers.lean ====
section
/-! DEFINITION. The register map of 10_state.md §10: names, offsets, read images, configuration writes. -/

namespace Sys2Proof.Machine

/-- The registers of R33. -/
inductive Reg where
  | cfgProto
  | cfgPulse
  | cfgRepeat
  | cfgBitlen
  | cfgTol
  | cfgGpio
  | cfgFilter
  | cmd
  | status
  | txCodeLo
  | txCodeHi
  | pollCodeLo
  | pollCodeHi
  | pollTs
  | pollStat
  | now
  | rxCount
  | rxSyncs
  | rxLastTs
  | pinStat
  | capbuf (i : Nat)
  | ptab (p f : Nat)
  deriving DecidableEq, Repr

/-- A name that R33 has: `CAPBUF[i]` for i up to 67, `PTAB[p][f]` for p and f up to 7. -/
def Reg.wf : Reg → Bool
  | .capbuf i => decide (i < 68)
  | .ptab p f => decide (p < 8) && decide (f < 8)
  | _ => true

/-- The offset column of R33. -/
def Reg.offset : Reg → Nat
  | .cfgProto => 0x000
  | .cfgPulse => 0x004
  | .cfgRepeat => 0x008
  | .cfgBitlen => 0x00C
  | .cfgTol => 0x010
  | .cfgGpio => 0x014
  | .cfgFilter => 0x018
  | .cmd => 0x020
  | .status => 0x024
  | .txCodeLo => 0x028
  | .txCodeHi => 0x02C
  | .pollCodeLo => 0x030
  | .pollCodeHi => 0x034
  | .pollTs => 0x038
  | .pollStat => 0x03C
  | .now => 0x040
  | .rxCount => 0x044
  | .rxSyncs => 0x048
  | .rxLastTs => 0x04C
  | .pinStat => 0x050
  | .capbuf i => 0x100 + 4 * i
  | .ptab p f => 0x300 + 0x20 * p + 4 * f

/-- The register at an offset; none where R33 lists none, a reserved offset. -/
def regAt (off : Nat) : Option Reg :=
  match off with
  | 0x000 => some .cfgProto
  | 0x004 => some .cfgPulse
  | 0x008 => some .cfgRepeat
  | 0x00C => some .cfgBitlen
  | 0x010 => some .cfgTol
  | 0x014 => some .cfgGpio
  | 0x018 => some .cfgFilter
  | 0x020 => some .cmd
  | 0x024 => some .status
  | 0x028 => some .txCodeLo
  | 0x02C => some .txCodeHi
  | 0x030 => some .pollCodeLo
  | 0x034 => some .pollCodeHi
  | 0x038 => some .pollTs
  | 0x03C => some .pollStat
  | 0x040 => some .now
  | 0x044 => some .rxCount
  | 0x048 => some .rxSyncs
  | 0x04C => some .rxLastTs
  | 0x050 => some .pinStat
  | _ =>
    if off % 4 ≠ 0 then none
    else if 0x100 ≤ off ∧ off < 0x210 then some (.capbuf ((off - 0x100) / 4))
    else if 0x300 ≤ off ∧ off < 0x400 then some (.ptab ((off - 0x300) / 0x20) ((off - 0x300) % 0x20 / 4))
    else none

/-- Field f of a row, zero-extended; field 7 reads 0 (R47). -/
def rowField (r : ProtoRow) (f : Nat) : Word :=
  match f with
  | 0 => r.pulseUnitUs.setWidth 32
  | 1 => r.syncHigh.setWidth 32
  | 2 => r.syncLow.setWidth 32
  | 3 => r.zeroHigh.setWidth 32
  | 4 => r.zeroLow.setWidth 32
  | 5 => r.oneHigh.setWidth 32
  | 6 => r.oneLow.setWidth 32
  | _ => 0#32

/-- The word of the PTAB window for row p and field f: rows 0 and 7 read 0 (R47). -/
def tableWord (t : ProtoTable) (p f : Nat) : Word :=
  if p < 8 then
    match lookup t (BitVec.ofNat 3 p) with
    | some r => rowField r f
    | none => 0#32
  else 0#32

/-- The image a register reads as, reserved bits 0 (R34-R47). -/
def readReg (r : Reg) (s : State) : Word :=
  match r with
  | .cfgProto => s.cfg.proto.setWidth 32
  | .cfgPulse => s.cfg.pulseOverride.setWidth 32
  | .cfgRepeat => s.cfg.txRepeat.setWidth 32
  | .cfgBitlen => s.cfg.bitLength.setWidth 32
  | .cfgTol => s.cfg.tol.setWidth 32
  | .cfgGpio => s.cfg.gpioId.setWidth 32
  | .cfgFilter => 0#23 ++ BitVec.ofBool s.cfg.rejectZero ++ s.cfg.minTrans
  | .cmd => 0#32
  | .status => statusImage s
  | .txCodeLo => codeLo s.txCode
  | .txCodeHi => codeHi s.txCode
  | .pollCodeLo => codeLo s.poll.code
  | .pollCodeHi => codeHi s.poll.code
  | .pollTs => s.poll.ts
  | .pollStat => 0#31 ++ BitVec.ofBool s.poll.valid
  | .now => s.now
  | .rxCount => s.cap.changeCount.setWidth 32
  | .rxSyncs => s.cap.syncCount
  | .rxLastTs => s.cap.lastTs
  | .pinStat => pinStatImage s.pin
  | .capbuf i => s.cap.buf[i]?.getD 0#32
  | .ptab p f => tableWord s.par.ptab p f

/-- `RegRead(off)` (R52): a reserved offset reads 0. -/
def regRead (off : Nat) (s : State) : Word :=
  match regAt off with
  | some r => readReg r s
  | none => 0#32

/-- The configuration lock (R17): writes count only with both roles disabled. -/
def unlocked (s : State) : Bool := !s.txEn && !s.rxEn

/-- The field writes of R77: bits above a field are dropped. -/
def writeCfg (r : Reg) (v : Word) (c : Cfg) : Cfg :=
  match r with
  | .cfgProto => { c with proto := v.extractLsb' 0 3 }
  | .cfgPulse => { c with pulseOverride := v.extractLsb' 0 16 }
  | .cfgRepeat => { c with txRepeat := v.extractLsb' 0 16 }
  | .cfgBitlen => { c with bitLength := v.extractLsb' 0 7 }
  | .cfgTol => { c with tol := v.extractLsb' 0 7 }
  | .cfgGpio => { c with gpioId := v.extractLsb' 0 8 }
  | .cfgFilter => { c with minTrans := v.extractLsb' 0 8, rejectZero := v.getLsbD 8 }
  | _ => c

/-- A configuration write under the lock (R77). -/
def lockedWrite (r : Reg) (v : Word) (s : State) : State :=
  if unlocked s then { s with cfg := writeCfg r v s.cfg } else s

end Sys2Proof.Machine
end

