-- ==== Sys2Proof/Machine/Bus.lean ====
section
/-! DEFINITION. 20_memory.md: host accesses, from the bus to the command unit. -/

namespace Sys2Proof.Machine

/-- `Command(v)` (R74): an illegal word is found first, even while BUSY (R69). -/
def command (v : Word) (s : State) : Result :=
  match decode v with
  | .ok i => exec i s
  | .error _ => .next (setErr .illegalCmd s)

/-- `RegWrite(off, v)` (R53): read-only registers and reserved offsets drop the write. -/
def regWrite (off : Nat) (v : Word) (s : State) : Result :=
  match regAt off with
  | some .cmd => command v s
  | some .txCodeLo => .next { s with txCode := setCodeLo s.txCode v }
  | some .txCodeHi => .next { s with txCode := setCodeHi s.txCode v }
  | some r => .next (lockedWrite r v s)
  | none => .next s

/-- The offset of an access in the window: a bus address is taken from BASE, and one below it is outside (R51, R135). -/
def targetOffset (p : Params) : Target → Option Nat
  | .offset off => some off
  | .address a => if p.base ≤ a then some (a - p.base) else none

/-- Only 32-bit accesses at a multiple of 4 inside the window are admitted (R51). -/
def admitted (nbytes off : Nat) : Bool := nbytes == 4 && off % 4 == 0 && decide (off < Config.windowSize)

/-- The answer of the bus. -/
def respond (r : BusResp) (s : State) : State := { s with busResp := some r }

/-- The bus error response: nothing changes, a read returns 0 (R51, R135). -/
def busError (k : AccessKind) (s : State) : State :=
  match k with
  | .read => respond (.readError 0#32) s
  | .write _ => respond .writeError s

/-- `MemAccess(off, n, kind, v)` (R51). -/
def access (a : Access) (s : State) : Result :=
  match targetOffset s.par a.target with
  | none => .next (busError a.kind s)
  | some off =>
    if admitted a.nbytes off then
      match a.kind with
      | .read => .next (respond (.data (regRead off s)) s)
      | .write v => regWrite off v (respond .written s)
    else .next (busError a.kind s)

/-- The reset input (R149): every state element at its reset value; the parameters and the pad's level are not state it
sets, and what the environment does next stays (log 15). -/
def resetStep (s : State) : State :=
  { State.reset with par := s.par, pin := { State.reset.pin with inp := s.pin.inp }, inputs := s.inputs }

end Sys2Proof.Machine
end

