-- ==== Sys2Proof/Machine/Step.lean ====
section
/-! DEFINITION. One step: the next event of the list, or a tick where nothing is listed (log 1). -/

namespace Sys2Proof.Machine

/-- One event (R10). -/
def handle (e : Event) (s : State) : Host.Outcome State Fault Refusal :=
  match e with
  | .access a => access a s
  | .pad level => padChange level s
  | .tick => tick s
  | .reset => .next (resetStep s)

/-- The state as a step's event finds it: that event taken off the list, no answer on the bus yet. -/
def State.take (rest : List Event) (s : State) : State := { s with inputs := rest, busResp := none }

/-- One atomic step of one agent (R10, R60). -/
def step (s : State) : Host.Outcome State Fault Refusal :=
  match s.inputs with
  | [] => tick (s.take [])
  | e :: rest => handle e (s.take rest)

/-- The host access that issues a command word (R66). -/
def commandWrite (w : Word) : Access := { target := .offset 0x020, nbytes := 4, kind := .write w }

/-- The word as the next thing the host writes to CMD (log 2). -/
def State.withFetchWord (s : State) (nbits w : Nat) : State :=
  { s with inputs := .access (commandWrite (BitVec.ofNat 32 (w % 2 ^ nbits))) :: s.inputs }

end Sys2Proof.Machine
end

