-- ==== Sys2Proof/WellFormed.lean ====
section
/-! DEFINITION. What is well formed: commands, and the parameters a model may be given (41_protocol_table.md R82, R83). -/

namespace Sys2Proof

/-- Every command is well formed: it has no operand that could be out of range (R68). -/
def Instr.wf : Instr → Bool
  | .nop | .enableTx | .disableTx | .sendCode | .sendBits | .enableRx | .disableRx | .poll => true

/-- "all multipliers > 0", and the unit at least 1 (R82). -/
def ProtoRow.wf (r : ProtoRow) : Bool :=
  r.pulseUnitUs != 0#16 && r.syncHigh != 0#8 && r.syncLow != 0#8 && r.zeroHigh != 0#8 && r.zeroLow != 0#8 &&
    r.oneHigh != 0#8 && r.oneLow != 0#8

/-- The five fields of row 1 that the source gives (R83). -/
def ProtoRow.isSourceRow1 (r : ProtoRow) : Bool :=
  r.pulseUnitUs == 350#16 && r.syncHigh == 1#8 && r.syncLow == 31#8 && r.zeroHigh == 1#8 && r.zeroLow == 3#8

/-- A table that R82 and R83 admit. -/
def ProtoTable.wf (t : ProtoTable) : Bool :=
  t.row1.wf && t.row2.wf && t.row3.wf && t.row4.wf && t.row5.wf && t.row6.wf && t.row1.isSourceRow1

/-- `BASE` is 1 KiB aligned (R6, R58). -/
def Params.wf (p : Params) : Bool :=
  p.ptab.wf && p.base % Config.windowAlign == 0

end Sys2Proof
end

