-- ==== Sys2Proof/Machine/Program.lean ====
section
/-! DEFINITION. Host programs: the lines of 30_encoding.md rule R71, their bus transactions (R73), the pseudo-instructions
of R72, and two instances on one wire (70_reset_and_hazards.md R161). The block itself knows none of this. No order between
agents is chosen here: a run is given the turns they take, and any list of turns is a run (R10, R60, R138; log 16, log 21). -/

namespace Sys2Proof.Machine

/-- A line of a host program; `edgeAt` and `delay` are stimuli, performed by a test harness (R71). -/
inductive Line where
  | wr (r : Reg) (v : Word)
  | rd (r : Reg)
  | cmd (i : Instr)
  | waitIdle
  | edgeAt (t : Word)
  | delay (n : Nat)
  deriving DecidableEq, Repr

/-- A line names registers of R33 only. -/
def Line.wf : Line → Bool
  | .wr r _ => r.wf
  | .rd r => r.wf
  | .cmd i => i.wf
  | .waitIdle | .edgeAt _ | .delay _ => true

/-- A 32-bit read of a register. -/
def readAccess (r : Reg) : Access := { target := .offset r.offset, nbytes := 4, kind := .read }

/-- A 32-bit write of a register. -/
def writeAccess (r : Reg) (v : Word) : Access := { target := .offset r.offset, nbytes := 4, kind := .write v }

/-- The bus transactions of a line (R73); a `wait_idle` is 1 + `more` reads of STATUS, a stimulus has none (R71). -/
def Line.transactions (more : Nat) : Line → List Access
  | .wr r v => [writeAccess r v]
  | .rd r => [readAccess r]
  | .cmd i => [writeAccess .cmd (encode i)]
  | .waitIdle => List.replicate (more + 1) (readAccess .status)
  | .edgeAt _ | .delay _ => []

/-- The encodings of a program (R73): the transactions of its lines in order, each `wait_idle` any number of reads from 1
up. -/
def encodesProgram : List Line → List Access → Prop
  | [], tr => tr = []
  | l :: ls, tr => ∃ more tail, tr = l.transactions more ++ tail ∧ encodesProgram ls tail

/-- An element of a host sequence of R72: a line, or `(s, e)`, after which a `wait_idle` may follow if e = OK. -/
inductive HostOp where
  | line (l : Line)
  | takeResult (thenWait : Bool)
  deriving DecidableEq, Repr

/-- `configure g, p, o, r, b, t` (R72). -/
def configure (g p o r b t : Word) : List HostOp :=
  [.line (.wr .cfgGpio g), .line (.wr .cfgProto p), .line (.wr .cfgPulse o), .line (.wr .cfgRepeat r),
    .line (.wr .cfgBitlen b), .line (.wr .cfgTol t)]

/-- `enable_transmit` (R72). -/
def enableTransmit : List HostOp := [.line (.cmd .enableTx), .takeResult false]

/-- `disable_transmit` (R72). -/
def disableTransmit : List HostOp := [.line .waitIdle, .line (.cmd .disableTx)]

/-- The common sequence of `send_code` and `send_bits` (R72). -/
def sendAndWait (i : Instr) (c : Code) : List HostOp :=
  [.line (.wr .txCodeLo (codeLo c)), .line (.wr .txCodeHi (codeHi c)), .line (.cmd i), .takeResult true]

/-- `send_code c` (R72). -/
def sendCode (c : Code) : List HostOp := sendAndWait .sendCode c

/-- `send_bits c` (R72). -/
def sendBits (c : Code) : List HostOp := sendAndWait .sendBits c

/-- `enable_receive` (R72). -/
def enableReceive : List HostOp := [.line (.cmd .enableRx), .takeResult false]

/-- `disable_receive` (R72). -/
def disableReceive : List HostOp := [.line (.cmd .disableRx)]

/-- `poll_received` (R72). -/
def pollReceived : List HostOp :=
  [.line (.cmd .poll), .line (.rd .pollStat), .line (.rd .pollCodeLo), .line (.rd .pollCodeHi), .line (.rd .pollTs)]

/-- `on_edge t`, a stimulus (R72). -/
def onEdge (t : Word) : List HostOp := [.line (.edgeAt t)]

/-- A program in progress: what is still to do, the e of its last `(s, e)`, the data of its `rd` lines, and its bus
transactions so far. -/
structure ProgramRun where
  todo : List HostOp
  result : Option (BitVec 4)
  reads : List Word
  trace : List Access
  deriving DecidableEq, Repr

/-- A program before its first transaction. -/
def ProgramRun.start (ops : List HostOp) : ProgramRun := { todo := ops, result := none, reads := [], trace := [] }

/-- The result of `poll_received` from the data of its four `rd` lines: nothing, or `({HI, LO}, POLL_TS)` (R72, R130). -/
def pollResult : List Word → Option (Code × Word)
  | [stat, lo, hi, ts] => if stat.getLsbD 0 then some (hi ++ lo, ts) else none
  | _ => none

/-- One step of the block whose event is the given one; what `inputs` lists stays for later steps. -/
def perform (e : Event) (s : State) : Result := step { s with inputs := e :: s.inputs }

/-- The outcome of a turn of a program. -/
abbrev RunResult := Host.Outcome (ProgramRun × State) Fault Refusal

/-- The data a read was answered with; 0 where the last step was no read. -/
def readData (s : State) : Word :=
  match s.busResp with
  | some (.data v) | some (.readError v) => v
  | some .written | some .writeError | none => 0#32

/-- Perform an access and go on as `next` says from the data read. -/
def issue (a : Access) (h : ProgramRun) (next : Word → ProgramRun → ProgramRun) (s : State) : RunResult :=
  andThen (perform (.access a) s) fun t => .next (next (readData t) { h with trace := h.trace ++ [a] }, t)

/-- One turn of a program: the next bus transaction of its first element, or, for a stimulus, one step of the test harness
(R71). A `wait_idle` stays first until a read shows BUSY = 0 (R72): how often it reads is not bounded. -/
def programTurn (h : ProgramRun) (s : State) : RunResult :=
  match h.todo with
  | [] => .next (h, s)
  | .takeResult thenWait :: rest =>
    issue (readAccess .status) h (fun d g =>
      { g with
        todo := if thenWait && d.extractLsb' 8 4 == 0#4 then .line .waitIdle :: rest else rest
        result := some (d.extractLsb' 8 4) }) s
  | .line .waitIdle :: rest =>
    issue (readAccess .status) h (fun d g => if d.getLsbD 2 then g else { g with todo := rest }) s
  | .line (.wr r v) :: rest => issue (writeAccess r v) h (fun _ g => { g with todo := rest }) s
  | .line (.rd r) :: rest => issue (readAccess r) h (fun d g => { g with todo := rest, reads := g.reads ++ [d] }) s
  | .line (.cmd i) :: rest => issue (writeAccess .cmd (encode i)) h (fun _ g => { g with todo := rest }) s
  | .line (.edgeAt t) :: rest =>
    if s.now = t then andThen (perform (.pad !s.pin.inp) s) fun u => .next ({ h with todo := rest }, u)
    else andThen (perform .tick s) fun u => .next (h, u)
  | .line (.delay 0) :: rest => .next ({ h with todo := rest }, s)
  | .line (.delay (n + 1)) :: rest =>
    andThen (perform .tick s) fun u => .next ({ h with todo := .line (.delay n) :: rest }, u)

/-- A tick that another agent's turn performs counts for a `delay` in progress. -/
def ProgramRun.passed (e : Event) (h : ProgramRun) : ProgramRun :=
  match e, h.todo with
  | .tick, .line (.delay (n + 1)) :: rest => { h with todo := .line (.delay n) :: rest }
  | _, _ => h

/-- Whose turn it is: the program's, or another agent's with its event (R10). Other bus masters are among them (R80). -/
inductive Turn where
  | program
  | other (e : Event)
  deriving DecidableEq, Repr

/-- A turn of a run. -/
def takeTurn (w : Turn) (h : ProgramRun) (s : State) : RunResult :=
  match w with
  | .program => programTurn h s
  | .other e => andThen (perform e s) fun t => .next (h.passed e, t)

/-- A run: the turns in the order given, which no rule fixes (R10, R60, R138; log 16). A program is through when its `todo`
is empty. -/
def runTurns : List Turn → ProgramRun → State → RunResult
  | [], h, s => .next (h, s)
  | w :: ws, h, s => andThen (takeTurn w h s) fun p => runTurns ws p.1 p.2

/-- `n` ticks of the timer. -/
def ticks : Nat → State → Result
  | 0, s => .next s
  | n + 1, s => andThen (tick s) (ticks n)

/-- Two instances of the block. -/
structure Pair where
  first : State
  second : State
  deriving DecidableEq, Repr

/-- Which instance takes the next step, with its event. -/
inductive WireTurn where
  | first (e : Event)
  | second (e : Event)
  deriving DecidableEq, Repr

/-- An event of the second instance where the first one's pad drives the wire (R161): while the first drives it, the level
on the second's pad is the first's `PIN_OUT`; while it does not (`PIN_OE` = 0), the level is whatever the event says, since
no rule gives one (93 I14; log 21). -/
def wireEvent (driver : State) : Event → Event
  | .pad level => .pad (if driver.pin.oe then driver.pin.out else level)
  | e => e

/-- One step of one instance. -/
def wireTurn (w : WireTurn) (p : Pair) : Host.Outcome Pair Fault Refusal :=
  match w with
  | .first e => andThen (perform e p.first) fun a => .next { p with first := a }
  | .second e => andThen (perform (wireEvent p.first e) p.second) fun b => .next { p with second := b }

/-- Two instances on one wire, their steps in the order given, which no rule fixes, within a microsecond either (R10,
R138, R146; log 21). -/
def runWire : List WireTurn → Pair → Host.Outcome Pair Fault Refusal
  | [], p => .next p
  | w :: ws, p => andThen (wireTurn w p) (runWire ws)

end Sys2Proof.Machine
end

