-- ==== Sys2Proof/Safety.lean ====
section
/-! DEFINITION. What claims are said in: the invariant of R15 with what keeps it, the waveform of a segment list as a
function of time, the intervals a receiver is fed, and the conditions of a round trip. -/

namespace Sys2Proof.Machine

/-- The capture buffer's own facts: the count is at most 67 (R15 I2), slot 67 is never written (R57), and a stored
duration is no noise (R108, R115). -/
def Capture.wf (c : Capture) : Prop :=
  c.changeCount.toNat ≤ Config.maxChanges ∧ c.buf[67] = 0#32 ∧
    ∀ i : Fin 68, i.val < c.changeCount.toNat → Config.tickThreshold < (c.buf[i.val]).toNat

/-- A mailbox or poll result: all 0 when nothing is pending (R15 I4), and a code below 2^33 (R122). -/
def CodeSlot.wf (m : CodeSlot) : Prop :=
  (m.valid = false → m = CodeSlot.empty) ∧ m.code.toNat < 2 ^ 33

/-- The engine during a send: either it waits for the first segment of a list, or a segment is on the pin with time left;
no segment of the queue is empty (R96, R98, R99). -/
def Engine.running (e : Engine) : Prop :=
  (if e.txWait = 0#32 then e.segLeft ≠ 0#32 else e.segLeft = 0#32 ∧ e.txq ≠ []) ∧ ∀ g ∈ e.txq, g.dur ≠ 0#32

/-- The invariant of R15, with the facts of the other rules that its proof needs. -/
structure State.Inv (s : State) : Prop where
  /-- R82, R83, R58. -/
  params : s.par.wf = true
  /-- R15 I1. -/
  oneRole : (s.txEn && s.rxEn) = false
  /-- R15 I3. -/
  busyTx : s.busy = true → s.txEn = true
  /-- R15 I2, R57, R115. -/
  capture : s.cap.wf
  /-- R15 I4, R122. -/
  mailbox : s.mb.wf
  /-- R126 with R15 I4, R122. -/
  polled : s.poll.wf
  /-- R84: while receiving, PROTO has a row; R103: and TOL is at most 100. -/
  rxConfig : s.rxEn = true → (lookup s.par.ptab s.cfg.proto).isSome = true ∧ s.cfg.tol.toNat ≤ 100
  /-- R129, R103, R104: while not receiving, the mailbox and the capture state are cleared. -/
  rxOff : s.rxEn = false → s.cap = Capture.cleared ∧ s.mb = CodeSlot.empty
  /-- R96, R99: a send in progress. -/
  sending : s.busy = true → s.eng.running
  /-- R99, R48: no send in progress. -/
  notSending : s.busy = false → s.eng = Engine.idle ∧ s.pin.out = false
  /-- R90, R91: the pad is driven exactly while transmit is enabled. -/
  driven : s.pin.oe = s.txEn

/-- The microseconds of a list of segments. -/
def totalDur (segs : List Segment) : Nat := (segs.map fun g => g.dur.toNat).sum

/-- The level of a list of segments at a time from its start; low after its end (R100). -/
def levelAt : List Segment → Nat → Bool
  | [], _ => false
  | g :: gs, n => if n < g.dur.toNat then g.level else levelAt gs (n - g.dur.toNat)

/-- The microseconds a send in progress still takes: waiting, the segment on the pin, the queue. -/
def Engine.remaining (e : Engine) : Nat := e.txWait.toNat + e.segLeft.toNat + totalDur e.txq

/-- Segments alternate, starting with the given level (R97). -/
def alternates : Bool → List Segment → Bool
  | _, [] => true
  | b, g :: gs => g.level == b && alternates (!b) gs

/-- The microseconds of one waveform of a row: high and low multiplier together. -/
def waveUnits (r : ProtoRow) (b : Bool) : Nat :=
  if b then r.oneHigh.toNat + r.oneLow.toNat else r.zeroHigh.toNat + r.zeroLow.toNat

/-- EDGE steps one after the other, each the given time after the last accepted edge. -/
def feedIntervals : List Word → State → Result
  | [], s => .next s
  | d :: ds, s => andThen (edge (s.cap.lastTs + d) s) (feedIntervals ds)

/-- The capture conditions of R88 on a row at U × 3 = `unit`: bit and sync-high intervals are data, sync low is a
boundary. -/
def receivable (r : ProtoRow) (unit : Nat) : Prop :=
  (∀ m ∈ [r.zeroHigh, r.zeroLow, r.oneHigh, r.oneLow, r.syncHigh],
      Config.tickThreshold < m.toNat * unit ∧ m.toNat * unit ≤ Config.syncThreshold) ∧
    Config.syncThreshold < r.syncLow.toNat * unit

/-- Two intervals differ by more than a tolerance. -/
def apart (tol a b : Nat) : Prop := a + tol < b ∨ b + tol < a

/-- The one pair differs from the zero pair by more than the tolerance in a component (R124). -/
def distinguishable (r : ProtoRow) (unit tol : Nat) : Prop :=
  apart tol (unit * r.oneHigh.toNat) (unit * r.zeroHigh.toNat) ∨ apart tol (unit * r.oneLow.toNat) (unit * r.zeroLow.toNat)

/-- What the next step does: the head of the list, a tick where nothing is listed (log 1). -/
def State.nextEvent (s : State) : Event := s.inputs.headD .tick

/-- The offset and data of an admitted host write (R51). -/
def admittedWrite (p : Params) (e : Event) : Option (Nat × Word) :=
  match e with
  | .access a =>
    match a.kind, targetOffset p a.target with
    | .write v, some off => if admitted a.nbytes off then some (off, v) else none
    | _, _ => none
  | _ => none

/-- An admitted write of CMD (R41). -/
def isCommandWrite (p : Params) (e : Event) : Bool :=
  match admittedWrite p e with
  | some (off, _) => off == 0x020
  | none => false

/-- The command an event issues: an admitted write of CMD with a legal word (R66, R69). -/
def issued (p : Params) (e : Event) : Option Instr :=
  match admittedWrite p e with
  | some (off, v) => if off = 0x020 then (decode v).toOption else none
  | none => none

/-- A turn of the program, or of the timer or the pad: no other bus master and no reset between. -/
def Turn.quiet : Turn → Bool
  | .program | .other .tick | .other (.pad _) => true
  | .other (.access _) | .other .reset => false

/-- The registers a command may change the reading of (the "Flags written" and effects of R76, R90, R91, R94, R95, R103,
R104, R126). -/
def changedBy : Instr → Reg → Bool
  | _, .status => true
  | .enableTx, .pinStat | .disableTx, .pinStat | .sendCode, .pinStat | .sendBits, .pinStat => true
  | .enableRx, .rxCount | .enableRx, .rxSyncs | .enableRx, .rxLastTs | .enableRx, .capbuf _ => true
  | .disableRx, .rxCount | .disableRx, .rxSyncs | .disableRx, .rxLastTs | .disableRx, .capbuf _ => true
  | .poll, .pollStat | .poll, .pollCodeLo | .poll, .pollCodeHi | .poll, .pollTs => true
  | _, _ => false

end Sys2Proof.Machine
end

