-- ==== Sys2Proof/Certificates/Slice0/Obligations.lean ====
section
/-! DEFINITION. The statements for the provers. Each docstring names the rule of spec/ it formalises. -/

open Sys2Proof Sys2Proof.Machine

/-! ## Encoding -/

/-- The opcode map of R68: the eight command words. -/
def Obligations.CommandWordsDecode : Prop :=
  decode 0x00000000#32 = .ok .nop ∧ decode 0x00000001#32 = .ok .enableTx ∧ decode 0x00000002#32 = .ok .disableTx ∧
    decode 0x00000003#32 = .ok .sendCode ∧ decode 0x00000004#32 = .ok .sendBits ∧
    decode 0x00000005#32 = .ok .enableRx ∧ decode 0x00000006#32 = .ok .disableRx ∧ decode 0x00000007#32 = .ok .poll

/-- R66, R68: every command has exactly one word, and every legal word is that of one command. -/
def Obligations.DecodeInvertsEncode : Prop := ∀ (v : Word) (i : Instr), decode v = .ok i ↔ v = encode i

/-- R69: which words are illegal, and what an illegal word does. -/
def Obligations.IllegalWordOnlySetsErr : Prop :=
  (∀ v : Word, (v.extractLsb' 4 28 ≠ 0#28 ∨ 8 ≤ (v.extractLsb' 0 4).toNat) ↔ ∀ i, decode v ≠ .ok i) ∧
    (∀ (v : Word) (s : State), (∀ i, decode v ≠ .ok i) → command v s = .next { s with err := .illegalCmd }) ∧
    ErrCode.illegalCmd.code = 7#4 ∧ decode 0x00000000#32 = .ok .nop

/-- R33: the register map has no register twice and no gap: names and offsets determine each other. -/
def Obligations.RegisterMapRoundTrips : Prop :=
  (∀ r : Reg, r.wf = true → regAt r.offset = some r ∧ r.offset % 4 = 0 ∧ r.offset < 0x400) ∧
    ∀ (off : Nat) (r : Reg), regAt off = some r → r.wf = true ∧ r.offset = off

/-! ## Dispatch -/

/-- R66, R74, R54: a step whose event is a write of a legal word to CMD is that command, on the state with the event taken
off the list and the bus answered. Which event comes next is the list's matter (log 1, log 2). -/
def Obligations.StepRunsDecodedCommand : Prop :=
  (∀ (s : State) (rest : List Event) (w : Word) (i : Instr), s.inputs = .access (commandWrite w) :: rest →
      decode w = .ok i → step s = exec i { s with inputs := rest, busResp := some .written }) ∧
    ∀ (s : State) (i : Instr),
      step (s.withFetchWord 32 (encode i).toNat) = exec i { s with busResp := some .written }

/-- R74: an illegal word, then BUSY, then the command's own rule, which writes OK unless it rejects. -/
def Obligations.CommandChecksInOrder : Prop :=
  ∀ (v : Word) (s : State), regWrite 0x020 v s = command v s ∧
    ((∀ i, decode v ≠ .ok i) → command v s = .next { s with err := .illegalCmd }) ∧
      ∀ i, decode v = .ok i →
        (s.busy = true → command v s = .next { s with err := .busy }) ∧
          (s.busy = false → command v s = exec i s ∧
            ∃ t, exec i s = .next t ∧ t.err ≠ .busy ∧ t.err ≠ .illegalCmd ∧
              (t.err ≠ .ok → t = { s with err := t.err }))

/-- R75: every CMD write answers a next state and writes ERR; a rejected one changes nothing else; no other step but
reset writes ERR; STATUS shows it. -/
def Obligations.ErrHoldsLastCommandResult : Prop :=
  (∀ (v : Word) (s : State), ∃ t, command v s = .next t ∧ (t.err ≠ .ok → t = { s with err := t.err }) ∧
      ∀ e : ErrCode, command v { s with err := e } = .next t) ∧
    (∀ s t : State, step s = .next t → isCommandWrite s.par s.nextEvent = false → s.nextEvent ≠ .reset →
      t.err = s.err) ∧
    ∀ s : State, (regRead 0x024 s).extractLsb' 8 4 = s.err.code

/-! ## The commands -/

/-- R76, whole. -/
def Obligations.NopRule : Prop :=
  decode 0x00000000#32 = .ok .nop ∧
    (∀ s : State, s.busy = false → exec .nop s = .next { s with err := .ok }) ∧
    (∀ s : State, s.busy = true → exec .nop s = .next { s with err := .busy }) ∧
    ∀ s : State, regRead 0x024 s = 0x00000301#32 → ∃ t, exec .nop s = .next t ∧ regRead 0x024 t = 0x00000001#32

/-- R90, whole. -/
def Obligations.EnableTxRule : Prop :=
  decode 0x00000001#32 = .ok .enableTx ∧
    (∀ s : State, s.busy = true → exec .enableTx s = .next { s with err := .busy }) ∧
    (∀ s : State, s.busy = false → s.rxEn = true → exec .enableTx s = .next { s with err := .roleConflict }) ∧
    (∀ s : State, s.busy = false → s.rxEn = false → s.txEn = false →
      exec .enableTx s =
        .next { s with txEn := true, pin := { s.pin with oe := true, out := false }, err := .ok }) ∧
    (∀ s : State, s.busy = false → s.rxEn = false → s.txEn = true → exec .enableTx s = .next { s with err := .ok }) ∧
    ∃ t, exec .enableTx State.reset = .next t ∧ regRead 0x024 t = 0x00000001#32 ∧ regRead 0x050 t &&& 3#32 = 2#32

/-- R91, whole. -/
def Obligations.DisableTxRule : Prop :=
  decode 0x00000002#32 = .ok .disableTx ∧
    (∀ s : State, s.busy = true → exec .disableTx s = .next { s with err := .busy }) ∧
    (∀ s : State, s.busy = false → s.txEn = true →
      exec .disableTx s =
        .next { s with txEn := false, pin := { s.pin with oe := false, out := false }, err := .ok }) ∧
    (∀ s : State, s.busy = false → s.txEn = false → exec .disableTx s = .next { s with err := .ok }) ∧
    ∀ s : State, s.Inv → s.txEn = true → s.busy = false →
      ∃ t, exec .disableTx s = .next t ∧ regRead 0x024 t = 0#32 ∧ regRead 0x050 t &&& 3#32 = 0#32

/-- R94: the checks in their order, the accepted send, and the corner cases. `txStart` and `sendSegments` are R96's. -/
def Obligations.SendCodeRule : Prop :=
  decode 0x00000003#32 = .ok .sendCode ∧
    (∀ s : State, s.busy = true → exec .sendCode s = .next { s with err := .busy }) ∧
    (∀ s : State, s.busy = false → s.txEn = false → exec .sendCode s = .next { s with err := .notEnabled }) ∧
    (∀ s : State, s.busy = false → s.txEn = true → lookup s.par.ptab s.cfg.proto = none →
      exec .sendCode s = .next { s with err := .invalidProtocol }) ∧
    (∀ (s : State) (r : ProtoRow), s.busy = false → s.txEn = true → lookup s.par.ptab s.cfg.proto = some r →
      (s.cfg.txRepeat = 0#16 → exec .sendCode s = .next { s with err := .invalidConfig }) ∧
        (s.cfg.txRepeat ≠ 0#16 → s.cfg.proto ≠ 6#3 → s.cfg.bitLength.toNat < 1 ∨ 64 < s.cfg.bitLength.toNat →
          exec .sendCode s = .next { s with err := .invalidConfig }) ∧
        (s.cfg.txRepeat ≠ 0#16 → s.cfg.proto ≠ 6#3 → 1 ≤ s.cfg.bitLength.toNat → s.cfg.bitLength.toNat ≤ 64 →
          (2 ^ s.cfg.bitLength.toNat ≤ s.txCode.toNat → exec .sendCode s = .next { s with err := .codeRange }) ∧
            (s.txCode.toNat < 2 ^ s.cfg.bitLength.toNat →
              exec .sendCode s =
                .next { txStart (sendSegments s r (codeBits s.cfg.bitLength.toNat s.txCode)) s with err := .ok })) ∧
        (s.cfg.txRepeat ≠ 0#16 → s.cfg.proto = 6#3 →
          (2 ^ 32 ≤ s.txCode.toNat → exec .sendCode s = .next { s with err := .codeRange }) ∧
            (s.txCode.toNat < 2 ^ 32 →
              exec .sendCode s =
                .next { txStart (sendSegments s r (expandP6 (codeBits 32 s.txCode))) s with err := .ok }))) ∧
    (∀ w : Nat, codeBits w 0#64 = List.replicate w false) ∧
    (∀ (s : State) (v : Word), regWrite 0x028 v s = .next { s with txCode := setCodeLo s.txCode v }) ∧
    codeBits 24 255#64 = List.replicate 16 false ++ List.replicate 8 true

/-- R95: the checks in their order, the accepted send of the pattern as given, and the example. -/
def Obligations.SendBitsRule : Prop :=
  decode 0x00000004#32 = .ok .sendBits ∧
    (∀ s : State, s.busy = true → exec .sendBits s = .next { s with err := .busy }) ∧
    (∀ s : State, s.busy = false → s.txEn = false → exec .sendBits s = .next { s with err := .notEnabled }) ∧
    (∀ s : State, s.busy = false → s.txEn = true → lookup s.par.ptab s.cfg.proto = none →
      exec .sendBits s = .next { s with err := .invalidProtocol }) ∧
    (∀ (s : State) (r : ProtoRow), s.busy = false → s.txEn = true → lookup s.par.ptab s.cfg.proto = some r →
      (s.cfg.txRepeat = 0#16 ∨ s.cfg.bitLength.toNat < 1 ∨ 64 < s.cfg.bitLength.toNat →
          exec .sendBits s = .next { s with err := .invalidConfig }) ∧
        (s.cfg.txRepeat ≠ 0#16 → 1 ≤ s.cfg.bitLength.toNat → s.cfg.bitLength.toNat ≤ 64 →
          (2 ^ s.cfg.bitLength.toNat ≤ s.txCode.toNat → exec .sendBits s = .next { s with err := .codeRange }) ∧
            (s.txCode.toNat < 2 ^ s.cfg.bitLength.toNat →
              exec .sendBits s =
                .next { txStart (sendSegments s r (codeBits s.cfg.bitLength.toNat s.txCode)) s with err := .ok }))) ∧
    codeBits 2 2#64 = [true, false] ∧
    ∀ (r : ProtoRow) (unit : Nat),
      frame true r unit [true, false] =
        syncWave r unit ++ bitWave r unit true ++ bitWave r unit false ++ syncWave r unit

/-- R103, whole: the clauses in the order of the rule. -/
def Obligations.EnableRxRule : Prop :=
  decode 0x00000005#32 = .ok .enableRx ∧
    (∀ s : State, s.busy = true → exec .enableRx s = .next { s with err := .busy }) ∧
    (∀ s : State, s.busy = false → s.txEn = true → exec .enableRx s = .next { s with err := .roleConflict }) ∧
    (∀ s : State, s.busy = false → s.txEn = false → s.rxEn = true → exec .enableRx s = .next { s with err := .ok }) ∧
    (∀ s : State, s.busy = false → s.txEn = false → s.rxEn = false →
      (lookup s.par.ptab s.cfg.proto = none → exec .enableRx s = .next { s with err := .invalidProtocol }) ∧
        (lookup s.par.ptab s.cfg.proto ≠ none → 100 < s.cfg.tol.toNat →
          exec .enableRx s = .next { s with err := .invalidConfig }) ∧
        (lookup s.par.ptab s.cfg.proto ≠ none → s.cfg.tol.toNat ≤ 100 →
          exec .enableRx s =
            .next { s with
              rxEn := true
              cap := { lastTs := 0#32, changeCount := 0#7, syncCount := 0#32, buf := Vector.replicate 68 0#32 }
              mb := { valid := false, code := 0#64, ts := 0#32 }
              err := .ok })) ∧
    (∀ s : State, s.Inv → s.txEn = false → s.busy = false) ∧
    (∀ (s : State) (level : Bool), s.rxEn = false →
      padChange level s = .next { s with pin := { s.pin with inp := level } }) ∧
    ∃ t, exec .enableRx { State.reset with cfg := { Cfg.reset with proto := 1#3 } } = .next t ∧
      regRead 0x024 t = 0x00000002#32 ∧ regRead 0x044 t = 0#32

/-- R104, whole. -/
def Obligations.DisableRxRule : Prop :=
  decode 0x00000006#32 = .ok .disableRx ∧
    (∀ s : State, s.busy = true → exec .disableRx s = .next { s with err := .busy }) ∧
    (∀ s : State, s.Inv → (s.rxEn = true ∨ s.txEn = false) → s.busy = false) ∧
    (∀ s : State, s.busy = false → s.rxEn = true →
      exec .disableRx s =
        .next { s with
          rxEn := false
          cap := { lastTs := 0#32, changeCount := 0#7, syncCount := 0#32, buf := Vector.replicate 68 0#32 }
          mb := { valid := false, code := 0#64, ts := 0#32 }
          err := .ok }) ∧
    (∀ s : State, s.busy = false → s.rxEn = false → exec .disableRx s = .next { s with err := .ok }) ∧
    ∀ s : State, s.Inv → s.rxEn = true → s.mb.valid = true →
      ∃ t, exec .disableRx s = .next t ∧ regRead 0x024 t = 0#32

/-- R126, whole. -/
def Obligations.PollRule : Prop :=
  decode 0x00000007#32 = .ok .poll ∧
    (∀ s : State, s.busy = true → exec .poll s = .next { s with err := .busy }) ∧
    (∀ s : State, s.Inv → s.busy = true → s.rxEn = false ∧ s.mb = { valid := false, code := 0#64, ts := 0#32 }) ∧
    (∀ s : State, s.busy = false →
      exec .poll s =
        .next { s with poll := s.mb, mb := { valid := false, code := 0#64, ts := 0#32 }, err := .ok }) ∧
    (∀ s : State, s.Inv → s.busy = false → (s.rxEn = false ∨ s.mb.valid = false) →
      ∃ t, exec .poll s = .next t ∧ t.poll = { valid := false, code := 0#64, ts := 0#32 }) ∧
    (∀ s t : State, s.busy = false → exec .poll s = .next t →
      ∃ u, exec .poll t = .next u ∧ u.poll = { valid := false, code := 0#64, ts := 0#32 }) ∧
    ∀ s : State, s.busy = false → s.mb = { valid := true, code := 5#64, ts := 1092400#32 } →
      ∃ t, exec .poll s = .next t ∧ regRead 0x03C t = 1#32 ∧ regRead 0x030 t = 5#32 ∧ regRead 0x034 t = 0#32 ∧
        regRead 0x038 t = 1092400#32 ∧ (regRead 0x024 t).getLsbD 3 = false

/-- The frame of every command, through the host's reads: a register outside the command's own reads as before, whatever
the outcome of the command ("Flags written" and effects of R76, R90, R91, R94, R95, R103, R104, R126). -/
def Obligations.CommandsChangeOnlyTheirRegisters : Prop :=
  ∀ (i : Instr) (s : State), ∃ t, exec i s = .next t ∧
    ∀ off, (∀ r, regAt off = some r → changedBy i r = false) → regRead off t = regRead off s

/-! ## Transmitter -/

/-- R85: the unit, and the exact duration of a multiplier. -/
def Obligations.TransmitDurationsAreExact : Prop :=
  (∀ (c : Cfg) (r : ProtoRow), c.pulseOverride ≠ 0#16 → txUnit c r = c.pulseOverride.toNat) ∧
    (∀ (c : Cfg) (r : ProtoRow), c.pulseOverride = 0#16 → txUnit c r = r.pulseUnitUs.toNat) ∧
    (∀ (c : Cfg) (r : ProtoRow), txUnit c r ≤ 65535) ∧
    ∀ (level : Bool) (m : BitVec 8) (u : Nat), u ≤ 65535 →
      (waveSegment level m u).level = level ∧ (waveSegment level m u).dur.toNat = m.toNat * u * 3 ∧ m.toNat * u * 3 < 2 ^ 26

/-- R92: the pattern of SEND_CODE, bit by bit. -/
def Obligations.SendCodePatternBits : Prop :=
  ∀ (c : Cfg) (code : Code),
    (c.proto ≠ 6#3 → (sendCodePattern c code).length = c.bitLength.toNat ∧
      ∀ k < c.bitLength.toNat, (sendCodePattern c code)[k]? = some (code.getLsbD (c.bitLength.toNat - 1 - k))) ∧
    (c.proto = 6#3 → (sendCodePattern c code).length = 64 ∧
      ∀ k < 32, (sendCodePattern c code)[2 * k]? = some (code.getLsbD (31 - k)) ∧
        (sendCodePattern c code)[2 * k + 1]? = some (!code.getLsbD (31 - k)))

/-- R97: the frame list, its number of segments and their alternation. -/
def Obligations.FrameListStructure : Prop :=
  ∀ (p6 : Bool) (r : ProtoRow) (u : Nat) (pat : List Bool) (n : Nat),
    frames p6 r u pat n =
        (List.replicate n ((if p6 then wave u r.syncHigh r.syncLow else []) ++
          pat.flatMap (fun b => if b then wave u r.oneHigh r.oneLow else wave u r.zeroHigh r.zeroLow) ++
          wave u r.syncHigh r.syncLow)).flatten ∧
      (frames p6 r u pat n).length = 2 * n * (pat.length + 1 + p6.toNat) ∧
      alternates true (frames p6 r u pat n) = true

/-- R101, the formula: the microseconds of a frame list; and its example. -/
def Obligations.FrameListDuration : Prop :=
  (∀ (p6 : Bool) (r : ProtoRow) (u : Nat) (pat : List Bool) (n : Nat), u ≤ 65535 →
    totalDur (frames p6 r u pat n) =
      n * u * 3 * ((1 + p6.toNat) * (r.syncHigh.toNat + r.syncLow.toNat) + (pat.map (waveUnits r)).sum)) ∧
    ∀ r : ProtoRow, r.isSourceRow1 = true → totalDur (frames false r 350 [false] 1) = 37800

/-- R96: what the acceptance of a send latches, and that with no latency the first segment is on the pin at once. -/
def Obligations.TxStartLatchesWaveform : Prop :=
  (∀ (s : State) (r : ProtoRow) (pat : List Bool),
      sendSegments s r pat =
        frames (s.cfg.proto == 6#3) r
          (if s.cfg.pulseOverride ≠ 0#16 then s.cfg.pulseOverride.toNat else r.pulseUnitUs.toNat) pat
          s.cfg.txRepeat.toNat) ∧
    (∀ (u : Nat) (h l : BitVec 8),
      wave u h l = [{ level := true, dur := BitVec.ofNat 32 (h.toNat * u * 3) },
        { level := false, dur := BitVec.ofNat 32 (l.toNat * u * 3) }]) ∧
    (∀ (segs : List Segment) (s : State), s.par.txLat ≠ 0#32 →
      txStart segs s =
        { s with eng := { txq := segs, segLeft := 0#32, txWait := s.par.txLat }, busy := true }) ∧
    ∀ (g : Segment) (gs : List Segment) (s : State), s.par.txLat = 0#32 →
      txStart (g :: gs) s =
        { s with
          eng := { txq := gs, segLeft := g.dur, txWait := 0#32 }
          busy := true
          pin := { s.pin with out := g.level } }

/-- R99, case by case, in the states a send reaches. -/
def Obligations.TickAdvancesEngine : Prop :=
  ∀ s : State,
    (s.busy = false → tick s = .next { s with now := s.now + 1#32 }) ∧
      (s.busy = true → 1 < s.eng.txWait.toNat →
        tick s = .next { s with now := s.now + 1#32, eng := { s.eng with txWait := s.eng.txWait - 1#32 } }) ∧
      (∀ g gs, s.busy = true → s.eng.txWait = 1#32 → s.eng.segLeft = 0#32 → s.eng.txq = g :: gs →
        tick s =
          .next { s with
            now := s.now + 1#32
            eng := { txq := gs, segLeft := g.dur, txWait := 0#32 }
            pin := { s.pin with out := g.level } }) ∧
      (s.busy = true → s.eng.txWait = 0#32 → 1 < s.eng.segLeft.toNat →
        tick s = .next { s with now := s.now + 1#32, eng := { s.eng with segLeft := s.eng.segLeft - 1#32 } }) ∧
      (∀ g gs, s.busy = true → s.eng.txWait = 0#32 → s.eng.segLeft = 1#32 → s.eng.txq = g :: gs →
        tick s =
          .next { s with
            now := s.now + 1#32
            eng := { txq := gs, segLeft := g.dur, txWait := 0#32 }
            pin := { s.pin with out := g.level } }) ∧
      (s.busy = true → s.eng.txWait = 0#32 → s.eng.segLeft = 1#32 → s.eng.txq = [] →
        tick s =
          .next { s with
            now := s.now + 1#32
            eng := { txq := [], segLeft := 0#32, txWait := 0#32 }
            busy := false
            pin := { s.pin with out := false } })

/-- R100 with R99, R101: after an accepted send the pad follows the latched waveform tick by tick, from TX_LAT ticks after
acceptance, BUSY is 1 exactly until its end, and the pad stays driven. -/
def Obligations.AcceptedSendDrivesWaveform : Prop :=
  ∀ (i : Instr) (s t : State), s.Inv → i = .sendCode ∨ i = .sendBits → exec i s = .next t → t.err = .ok →
    ∃ r, lookup s.par.ptab s.cfg.proto = some r ∧
      ∀ segs, segs = sendSegments s r
          (if i = .sendCode then sendCodePattern s.cfg s.txCode else codeBits s.cfg.bitLength.toNat s.txCode) →
        ∀ n, ∃ u, ticks n t = .next u ∧ u.now = t.now + BitVec.ofNat 32 n ∧ u.pin.oe = true ∧
          u.pin.out = (decide (s.par.txLat.toNat ≤ n) && levelAt segs (n - s.par.txLat.toNat)) ∧
          u.busy = decide (n < s.par.txLat.toNat + totalDur segs)

/-- R102 with R155: while a send is in progress every command is rejected with BUSY, and no event but a tick or reset
touches the engine or the driven pad; reset abandons the send. -/
def Obligations.BusySendCannotBeStopped : Prop :=
  ∀ s : State, s.Inv → s.busy = true →
    (∀ i, exec i s = .next { s with err := .busy }) ∧
      (∀ e : Event, e ≠ .tick → e ≠ .reset → ∃ t, handle e s = .next t ∧ t.eng = s.eng ∧ t.busy = true ∧
        t.txEn = true ∧ t.pin.out = s.pin.out ∧ t.pin.oe = s.pin.oe ∧ t.cap = s.cap ∧ t.mb = s.mb) ∧
      ∃ t, handle .reset s = .next t ∧ t.busy = false ∧ t.eng = { txq := [], segLeft := 0#32, txWait := 0#32 } ∧
        t.pin.out = false ∧ t.pin.oe = false

/-- R72's `send_code` and `send_bits`, in every interleaving with the timer and the pad: such an operation is through only
when the transmitter is idle again, with the command's result; and it is through one read after the waveform's microseconds
have passed, or at once where the command was rejected. -/
def Obligations.SendCodeOperationWaitsForEnd : Prop :=
  ∀ (i : Instr) (c : Code) (s : State), i = .sendCode ∨ i = .sendBits → s.Inv → s.busy = false →
    (∀ (turns : List Turn) (h : ProgramRun) (t : State), (∀ w ∈ turns, w.quiet = true) →
      runTurns turns (.start (sendAndWait i c)) s = .next (h, t) → h.todo = [] →
      t.busy = false ∧ t.pin.out = false ∧ t.txCode = c ∧ h.result = some t.err.code) ∧
    (∀ (h : ProgramRun) (t : State),
      runTurns (List.replicate 4 .program) (.start (sendAndWait i c)) s = .next (h, t) → t.err ≠ .ok → h.todo = []) ∧
    ∀ (r : ProtoRow) (mid : List Turn), lookup s.par.ptab s.cfg.proto = some r → (∀ w ∈ mid, w.quiet = true) →
      s.par.txLat.toNat + totalDur (sendSegments s r
        (if i = .sendCode then sendCodePattern s.cfg c else codeBits s.cfg.bitLength.toNat c)) ≤ mid.count (.other .tick) →
      ∃ h t, runTurns (List.replicate 4 .program ++ mid ++ [.program]) (.start (sendAndWait i c)) s = .next (h, t) ∧
        h.todo = []

/-! ## Edge capture and decoder -/

/-- R105: which transitions are EDGE events, their timestamp, and that the level is not used. -/
def Obligations.PadTransitionsAreEdges : Prop :=
  (∀ (s : State) (level : Bool), s.rxEn = true → level ≠ s.pin.inp →
      padChange level s = edge s.now { s with pin := { s.pin with inp := level } }) ∧
    (∀ (s : State) (level : Bool), s.rxEn = false ∨ level = s.pin.inp →
      padChange level s = .next { s with pin := { s.pin with inp := level } }) ∧
    ∀ (ts : Word) (s t : State) (p : Pin), edge ts s = .next t → edge ts { s with pin := p } = .next { t with pin := p }

/-- R107. -/
def Obligations.EdgeDurationIsModular : Prop :=
  (∀ (ts : Word) (s : State),
      (edgeDuration ts s).toNat = (ts.toNat + (2 ^ 32 - s.cap.lastTs.toNat)) % 2 ^ 32) ∧
    ∀ s t : State, s.rxEn = false → exec .enableRx s = .next t → t.rxEn = true → ∀ ts, edgeDuration ts t = ts

/-- R108: a noise edge changes no state, so the next duration is measured from the last non-noise edge. -/
def Obligations.NoiseEdgeChangesNothing : Prop :=
  ∀ (ts : Word) (s : State), (edgeDuration ts s).toNat ≤ 300 → edge ts s = .next s

/-- R109: the frame boundary. DECODE runs on the buffer as it was, and only from a count of 3. -/
def Obligations.FrameBoundaryRule : Prop :=
  ∀ (ts : Word) (s : State), 15000 < (edgeDuration ts s).toNat →
    (s.cap.changeCount.toNat ≤ 2 →
      edge ts s =
        .next { s with
          cap := {
            lastTs := ts
            changeCount := 1#7
            syncCount := s.cap.syncCount + 1#32
            buf := s.cap.buf.set 0 (edgeDuration ts s) } }) ∧
      (2 < s.cap.changeCount.toNat → ∀ u, decodeFrame (s.cap.changeCount.toNat - 1) ts s = .next u →
        edge ts s =
          .next { s with
            cap := {
              lastTs := ts
              changeCount := 1#7
              syncCount := s.cap.syncCount + 1#32
              buf := s.cap.buf.set 0 (edgeDuration ts s) }
            mb := u.mb }) ∧
      (s.Inv → s.rxEn = true → ∃ u, decodeFrame (s.cap.changeCount.toNat - 1) ts s = .next u)

/-- R110 and R111: the data half-pulse, the overflow reset, and LAST_TS at every non-noise edge. -/
def Obligations.DataEdgeRule : Prop :=
  (∀ (ts : Word) (s : State), 300 < (edgeDuration ts s).toNat → (edgeDuration ts s).toNat ≤ 15000 →
    (67 ≤ s.cap.changeCount.toNat →
      edge ts s =
        .next { s with
          cap := { lastTs := ts, changeCount := 0#7, syncCount := 0#32, buf := s.cap.buf } }) ∧
      ∀ h : s.cap.changeCount.toNat < 67,
        edge ts s =
          .next { s with
            cap := {
              lastTs := ts
              changeCount := s.cap.changeCount + 1#7
              syncCount := s.cap.syncCount
              buf := s.cap.buf.set s.cap.changeCount.toNat (edgeDuration ts s) } }) ∧
    (∀ (ts : Word) (s t : State), 300 < (edgeDuration ts s).toNat → edge ts s = .next t → t.cap.lastTs = ts) ∧
    ∀ (ts : Word) (s t : State), s.cap.changeCount.toNat ≤ 67 → edge ts s = .next t →
      t.cap.changeCount.toNat ≤ 67 ∧ t.cap.buf[67] = s.cap.buf[67] ∧ t.err = s.err

/-- R57: the one slot an EDGE step writes, slot 0 for a sync interval and slot CHANGE_COUNT for a data interval that is
stored, what it writes there, and that every other slot, slot 67 among them, is as before; after a clearing slot 67 is 0. -/
def Obligations.EdgeWritesOneSlot : Prop :=
  (∀ (ts : Word) (s t : State), s.cap.changeCount.toNat ≤ 67 → edge ts s = .next t →
    (∀ i : Fin 68, t.cap.buf[i.val] =
      if 15000 < (edgeDuration ts s).toNat ∧ i.val = 0 then edgeDuration ts s
      else if 300 < (edgeDuration ts s).toNat ∧ (edgeDuration ts s).toNat ≤ 15000 ∧ i.val = s.cap.changeCount.toNat ∧
          s.cap.changeCount.toNat < 67 then edgeDuration ts s
      else s.cap.buf[i.val]) ∧
    t.cap.buf[67] = s.cap.buf[67]) ∧
  ∀ s : State, (clearRx s).cap.buf[67] = 0#32

/-- R114, R122, R127: DECODE writes nothing but the mailbox, a code it publishes is below 2^33 and replaces whatever the
mailbox held, and from an invariant state with receive enabled it always ends. -/
def Obligations.DecodeWritesOnlyMailbox : Prop :=
  (∀ (n : Nat) (ts : Word) (s t : State), n ≤ 66 → decodeFrame n ts s = .next t →
      t = s ∨ ∃ c : Code, c.toNat < 2 ^ 33 ∧ t = { s with mb := { valid := true, code := c, ts := ts } }) ∧
    (∀ (n : Nat) (ts : Word) (s t : State) (m : CodeSlot), decodeFrame n ts s = .next t →
      t ≠ s → decodeFrame n ts { s with mb := m } = .next t) ∧
    ∀ (n : Nat) (ts : Word) (s : State), s.Inv → s.rxEn = true → n ≤ 66 → ∃ t, decodeFrame n ts s = .next t

/-- R117, with its boundary. -/
def Obligations.ToleranceBoundary : Prop :=
  (∀ (tol : Nat) (d : Word) (t : Nat), matchesTemplate tol d t = true ↔ ((d.toNat : Int) - (t : Int)).natAbs ≤ tol) ∧
    ∀ (tol : Nat) (d : Word) (t : Nat),
      (d.toNat = t + tol ∨ t = d.toNat + tol → matchesTemplate tol d t = true) ∧
        (d.toNat = t + tol + 1 ∨ t = d.toNat + tol + 1 → matchesTemplate tol d t = false)

/-- R119: zero first, both components of one template, bits from the most significant. -/
def Obligations.PairWalkBuildsCode : Prop :=
  (∀ (r : ProtoRow) (delay tol : Nat) (h l : Word),
    pairBit r delay tol h l =
      if matchesTemplate tol h (delay * r.zeroHigh.toNat) = true ∧
          matchesTemplate tol l (delay * r.zeroLow.toNat) = true then some false
      else if matchesTemplate tol h (delay * r.oneHigh.toNat) = true ∧
          matchesTemplate tol l (delay * r.oneLow.toNat) = true then some true
      else none) ∧
    ∀ (r : ProtoRow) (delay tol : Nat) (buf : Vector Word 68) (bits : List Bool) (i code : Nat),
      i + 2 * bits.length ≤ 68 →
      (∀ k b, bits[k]? = some b → ∃ h l, buf[i + 2 * k]? = some h ∧ buf[i + 2 * k + 1]? = some l ∧
        pairBit r delay tol h l = some b) →
      walkPairs r delay tol buf bits.length i code = .code (bits.foldl (fun c b => 2 * c + b.toNat) code)

/-- R120: a walk that ends with a code is published exactly when the gate lets it, over whatever the mailbox held. -/
def Obligations.AcceptanceGate : Prop :=
  ∀ (n : Nat) (ts : Word) (s : State) (r : ProtoRow) (c : Nat), lookup s.par.ptab s.cfg.proto = some r →
    walkPairs r (s.cap.buf[0].toNat / r.syncLow.toNat)
        (s.cap.buf[0].toNat / r.syncLow.toNat * s.cfg.tol.toNat / 100) s.cap.buf (n / 2) 1 0 = .code c →
    (s.cfg.minTrans.toNat < n → s.cfg.rejectZero = false ∨ c ≠ 0 →
      decodeFrame n ts s = .next { s with mb := { valid := true, code := BitVec.ofNat 64 c, ts := ts } }) ∧
    (n ≤ s.cfg.minTrans.toNat ∨ (s.cfg.rejectZero = true ∧ c = 0) → decodeFrame n ts s = .next s) ∧
    (Cfg.reset.minTrans = 6#8 ∧ Cfg.reset.rejectZero = true)

/-- R121: a pair that matches neither template aborts the frame and nothing at all changes; nor does a frame that the gate
turns away change anything. -/
def Obligations.FailedDecodeIsSilent : Prop :=
  (∀ (n : Nat) (ts : Word) (s : State) (r : ProtoRow) (k : Nat) (h l : Word), n ≤ 66 → k < n / 2 →
    lookup s.par.ptab s.cfg.proto = some r →
    s.cap.buf[1 + 2 * k]? = some h → s.cap.buf[2 + 2 * k]? = some l →
    pairBit r (frameDelay r s.cap.buf[0]) (frameTol (frameDelay r s.cap.buf[0]) s.cfg.tol) h l = none →
    decodeFrame n ts s = .next s) ∧
    (∀ (n : Nat) (ts : Word) (s t : State), decodeFrame n ts s = .next t → n ≤ s.cfg.minTrans.toNat → t = s) ∧
    ∀ (n : Nat) (ts : Word) (s t : State), n ≤ 66 → decodeFrame n ts s = .next t → t ≠ s → s.cfg.rejectZero = true →
      t.mb.code ≠ 0#64

/-- R125, the source's worked example, whatever the one template is. -/
def Obligations.WorkedExampleDecodesZero : Prop :=
  ∀ r : ProtoRow, r.isSourceRow1 = true →
    frameDelay r 32550#32 = 1050 ∧ frameTol 1050 70#7 = 735 ∧ pairBit r 1050 735 1050#32 3150#32 = some false

/-- R124: the round trip. A frame of b bits with a nonzero code, as R97 lays it out for a protocol of 1 to 5, fed as
intervals to a receiver whose slot 0 holds the sender's sync low, is published at its closing boundary. The gate's
threshold is a hypothesis; at its reset value 6 it is 3 ≤ b. -/
def Obligations.SentFrameIsDecoded : Prop :=
  ∀ (s : State) (r : ProtoRow) (u b : Nat) (code : Code),
    s.Inv → s.rxEn = true → s.cfg.proto ≠ 6#3 → lookup s.par.ptab s.cfg.proto = some r →
    1 ≤ u → u ≤ 65535 → receivable r (u * 3) → distinguishable r (u * 3) (frameTol (u * 3) s.cfg.tol) →
    1 ≤ b → b ≤ 32 → s.cfg.minTrans.toNat < 2 * b + 1 → code.toNat < 2 ^ b → code ≠ 0#64 →
    s.cap.changeCount = 1#7 → s.cap.buf[0].toNat = r.syncLow.toNat * u * 3 →
    ∃ t, feedIntervals ((frame false r u (codeBits b code)).map Segment.dur) s = .next t ∧
      t.mb = { valid := true, code := code, ts := t.cap.lastTs } ∧ t.cap.changeCount = 1#7 ∧
      t.cap.buf[0].toNat = r.syncLow.toNat * u * 3

/-- R138 (a): of two edges at one value of NOW the second is noise. -/
def Obligations.SecondEdgeAtSameTimeIsNoise : Prop :=
  ∀ (ts : Word) (s t : State), edge ts s = .next t → edge ts t = .next t

/-- R138 (c): a pad change and DISABLE_RX in either order leave the same state. -/
def Obligations.EdgeAndDisableRxCommute : Prop :=
  ∀ (level : Bool) (s : State), s.Inv → s.rxEn = true →
    ∃ t, andThen (padChange level s) (exec .disableRx) = .next t ∧
      andThen (exec .disableRx s) (padChange level) = .next t

/-! ## Host accesses -/

/-- R51: which accesses are admitted, and the bus error of the others. -/
def Obligations.OnlyAlignedWordsAdmitted : Prop :=
  (∀ (s : State) (off n : Nat), ¬(n = 4 ∧ off % 4 = 0 ∧ off < 0x400) →
      access { target := .offset off, nbytes := n, kind := .read } s =
          .next { s with busResp := some (.readError 0#32) } ∧
        ∀ v, access { target := .offset off, nbytes := n, kind := .write v } s =
          .next { s with busResp := some .writeError }) ∧
    ∀ (s : State) (off : Nat), off % 4 = 0 → off < 0x400 →
      access { target := .offset off, nbytes := 4, kind := .read } s =
          .next { s with busResp := some (.data (regRead off s)) } ∧
        ∀ v, access { target := .offset off, nbytes := 4, kind := .write v } s =
          regWrite off v { s with busResp := some .written }

/-- R135, R58: an access by bus address is that at its offset from BASE; below BASE it is outside the window. -/
def Obligations.BusAddressesCountFromBase : Prop :=
  ∀ (s : State) (n : Nat) (k : AccessKind),
    (∀ off, access { target := .address (s.par.base + off), nbytes := n, kind := k } s =
      access { target := .offset off, nbytes := n, kind := k } s) ∧
    ∀ a, a < s.par.base → ∃ resp, (resp = .readError 0#32 ∨ resp = .writeError) ∧
      access { target := .address a, nbytes := n, kind := k } s = .next { s with busResp := some resp }

/-- R52: reads answer the image and have no side effect; reserved offsets and CMD read 0. -/
def Obligations.ReadsHaveNoSideEffect : Prop :=
  (∀ (off : Nat) (s : State), regAt off = none → regRead off s = 0#32) ∧
    (∀ s : State, regRead 0x020 s = 0#32) ∧
    ∀ (a : Access) (s : State), a.kind = .read → ∃ resp,
      access a s = .next { s with busResp := some resp } ∧
        ∀ t, access a s = .next t → access a t = .next t ∧ ∀ off, regRead off t = regRead off s

/-- R53 with R78: what a write does at every offset. -/
def Obligations.RegisterWriteRule : Prop :=
  ∀ (v : Word) (s : State),
    (∀ off r, regAt off = some r → off ≤ 0x018 →
      (s.txEn = false → s.rxEn = false → regWrite off v s = .next { s with cfg := writeCfg r v s.cfg }) ∧
        (s.txEn = true ∨ s.rxEn = true → regWrite off v s = .next s)) ∧
    regWrite 0x020 v s = command v s ∧
    (∃ c : Code, regWrite 0x028 v s = .next { s with txCode := c } ∧ c.extractLsb' 0 32 = v ∧
      c.extractLsb' 32 32 = s.txCode.extractLsb' 32 32) ∧
    (∃ c : Code, regWrite 0x02C v s = .next { s with txCode := c } ∧ c.extractLsb' 32 32 = v ∧
      c.extractLsb' 0 32 = s.txCode.extractLsb' 0 32) ∧
    ∀ off, 0x018 < off → off ≠ 0x020 → off ≠ 0x028 → off ≠ 0x02C → regWrite off v s = .next s

/-- R77 with R34-R40: an unlocked configuration write stores the field's bits and drops the others, as a read then
shows; a locked one is dropped. -/
def Obligations.ConfigurationReadsBack : Prop :=
  ∀ (v : Word) (s : State),
    (s.txEn = true ∨ s.rxEn = true → ∀ off ≤ 0x018, regWrite off v s = .next s) ∧
    (s.txEn = false → s.rxEn = false →
    (∃ t, regWrite 0x000 v s = .next t ∧ t = { s with cfg := { s.cfg with proto := v.extractLsb' 0 3 } } ∧
      regRead 0x000 t = v &&& 0x7#32) ∧
    (∃ t, regWrite 0x004 v s = .next t ∧ t = { s with cfg := { s.cfg with pulseOverride := v.extractLsb' 0 16 } } ∧
      regRead 0x004 t = v &&& 0xFFFF#32) ∧
    (∃ t, regWrite 0x008 v s = .next t ∧ t = { s with cfg := { s.cfg with txRepeat := v.extractLsb' 0 16 } } ∧
      regRead 0x008 t = v &&& 0xFFFF#32) ∧
    (∃ t, regWrite 0x00C v s = .next t ∧ t = { s with cfg := { s.cfg with bitLength := v.extractLsb' 0 7 } } ∧
      regRead 0x00C t = v &&& 0x7F#32) ∧
    (∃ t, regWrite 0x010 v s = .next t ∧ t = { s with cfg := { s.cfg with tol := v.extractLsb' 0 7 } } ∧
      regRead 0x010 t = v &&& 0x7F#32) ∧
    (∃ t, regWrite 0x014 v s = .next t ∧ t = { s with cfg := { s.cfg with gpioId := v.extractLsb' 0 8 } } ∧
      regRead 0x014 t = v &&& 0xFF#32) ∧
    ∃ t, regWrite 0x018 v s = .next t ∧
      t = { s with cfg := { s.cfg with minTrans := v.extractLsb' 0 8, rejectZero := v.getLsbD 8 } } ∧
      regRead 0x018 t = v &&& 0x1FF#32)

/-- R42. -/
def Obligations.StatusWordLayout : Prop :=
  (∀ s : State,
      (regRead 0x024 s).getLsbD 0 = s.txEn ∧ (regRead 0x024 s).getLsbD 1 = s.rxEn ∧
        (regRead 0x024 s).getLsbD 2 = s.busy ∧ (regRead 0x024 s).getLsbD 3 = s.mb.valid ∧
        (regRead 0x024 s).extractLsb' 4 4 = 0#4 ∧ (regRead 0x024 s).extractLsb' 8 4 = s.err.code ∧
        (regRead 0x024 s).extractLsb' 12 20 = 0#20 ∧
        access { target := .offset 0x024, nbytes := 4, kind := .read } s =
          .next { s with busResp := some (.data (regRead 0x024 s)) } ∧
        ∀ v, regWrite 0x024 v s = .next s) ∧
    regRead 0x024 State.reset = 0#32

/-- R43, R44, R45: the code, poll, time, capture and pin registers show their state, reserved bits 0; writes of a code half
change that half and need no lock; the read-only ones drop writes. -/
def Obligations.RegisterImagesShowState : Prop :=
  ∀ (s : State) (v : Word),
    (regRead 0x02C s ++ regRead 0x028 s = s.txCode ∧
      (∃ t, regWrite 0x028 v s = .next t ∧ t = { s with txCode := s.txCode.extractLsb' 32 32 ++ v } ∧
        regRead 0x028 t = v ∧ regRead 0x02C t = regRead 0x02C s) ∧
      (∃ t, regWrite 0x02C v s = .next t ∧ t = { s with txCode := v ++ s.txCode.extractLsb' 0 32 } ∧
        regRead 0x02C t = v ∧ regRead 0x028 t = regRead 0x028 s) ∧
      regRead 0x028 State.reset = 0#32 ∧ regRead 0x02C State.reset = 0#32) ∧
    (regRead 0x034 s ++ regRead 0x030 s = s.poll.code ∧ regRead 0x038 s = s.poll.ts ∧
      (regRead 0x03C s).getLsbD 0 = s.poll.valid ∧ (regRead 0x03C s).extractLsb' 1 31 = 0#31) ∧
    (regRead 0x040 s = s.now ∧ (regRead 0x044 s).toNat = s.cap.changeCount.toNat ∧ regRead 0x048 s = s.cap.syncCount ∧
      regRead 0x04C s = s.cap.lastTs ∧ (regRead 0x050 s).getLsbD 0 = s.pin.out ∧ (regRead 0x050 s).getLsbD 1 = s.pin.oe ∧
      (regRead 0x050 s).getLsbD 2 = s.pin.inp ∧ (regRead 0x050 s).extractLsb' 3 29 = 0#29) ∧
    ∀ off, 0x030 ≤ off → off ≤ 0x050 → regWrite off v s = .next s

/-- R46: the capture window. -/
def Obligations.CaptureWindowShowsSlots : Prop :=
  ∀ s : State, (∀ i : Fin 68, regRead (0x100 + 4 * i.val) s = s.cap.buf[i.val]) ∧
    (∀ off, 0x210 ≤ off → off ≤ 0x2FC → regRead off s = 0#32) ∧
    ∀ off v, 0x100 ≤ off → off ≤ 0x2FC → regWrite off v s = .next s

/-- R47 with R84: the table window, and which ids have a row. -/
def Obligations.TableWindowShowsRows : Prop :=
  ∀ s : State,
    (∀ (p : BitVec 3) (r : ProtoRow), lookup s.par.ptab p = some r →
      regRead (0x300 + 0x20 * p.toNat) s = r.pulseUnitUs.setWidth 32 ∧
        regRead (0x304 + 0x20 * p.toNat) s = r.syncHigh.setWidth 32 ∧
        regRead (0x308 + 0x20 * p.toNat) s = r.syncLow.setWidth 32 ∧
        regRead (0x30C + 0x20 * p.toNat) s = r.zeroHigh.setWidth 32 ∧
        regRead (0x310 + 0x20 * p.toNat) s = r.zeroLow.setWidth 32 ∧
        regRead (0x314 + 0x20 * p.toNat) s = r.oneHigh.setWidth 32 ∧
        regRead (0x318 + 0x20 * p.toNat) s = r.oneLow.setWidth 32 ∧
        regRead (0x31C + 0x20 * p.toNat) s = 0#32) ∧
    (∀ f < 8, regRead (0x300 + 4 * f) s = 0#32 ∧ regRead (0x3E0 + 4 * f) s = 0#32) ∧
    (∀ p : BitVec 3, lookup s.par.ptab p = none ↔ p = 0#3 ∨ p = 7#3) ∧
    ∀ off v, 0x300 ≤ off → off ≤ 0x3FC → regWrite off v s = .next s

/-- R73 with R71: the bus transactions of the lines; a program that is through has performed an encoding of its lines, in
order, whatever came between; and a `cmd` line performs its command. -/
def Obligations.LinesAreTheirTransactions : Prop :=
  (∀ (more : Nat) (r : Reg) (v : Word), (Line.wr r v).transactions more =
      [{ target := .offset r.offset, nbytes := 4, kind := .write v }]) ∧
    (∀ (more : Nat) (r : Reg), (Line.rd r).transactions more =
      [{ target := .offset r.offset, nbytes := 4, kind := .read }]) ∧
    (∀ (more : Nat) (i : Instr), (Line.cmd i).transactions more = [commandWrite (encode i)]) ∧
    (∀ (more : Nat), (Line.waitIdle).transactions more =
      List.replicate (more + 1) { target := .offset 0x024, nbytes := 4, kind := .read }) ∧
    (∀ (lines : List Line) (turns : List Turn) (s t : State) (h : ProgramRun),
      runTurns turns (.start (lines.map .line)) s = .next (h, t) → h.todo = [] → encodesProgram lines h.trace) ∧
    (∀ (h : ProgramRun) (i : Instr) (rest : List HostOp) (s : State), h.todo = .line (.cmd i) :: rest →
      programTurn h s = andThen (exec i { s with busResp := some .written }) fun t =>
        .next ({ h with todo := rest, trace := h.trace ++ [commandWrite (encode i)] }, t)) ∧
    (Line.cmd .sendCode).transactions 0 = [{ target := .offset 0x020, nbytes := 4, kind := .write 0x00000003#32 }] ∧
    (Line.wr .cfgProto 1#32).transactions 0 = [{ target := .offset 0x000, nbytes := 4, kind := .write 0x00000001#32 }]

/-- R72: what each operation of the source's surface leaves and the result it takes, in every interleaving with the timer
and the pad (`send_code` and `send_bits` have SendCodeOperationWaitsForEnd too). -/
def Obligations.HostOperationsTakeTheirResults : Prop :=
  ∀ (turns : List Turn) (ops : List HostOp) (s t : State) (h : ProgramRun), (∀ w ∈ turns, w.quiet = true) →
    runTurns turns (.start ops) s = .next (h, t) → h.todo = [] →
    (∀ g p o r b tol : Word, ops = configure g p o r b tol →
      (s.txEn = false → s.rxEn = false →
        t.cfg = { s.cfg with
          gpioId := g.extractLsb' 0 8, proto := p.extractLsb' 0 3, pulseOverride := o.extractLsb' 0 16
          txRepeat := r.extractLsb' 0 16, bitLength := b.extractLsb' 0 7, tol := tol.extractLsb' 0 7 }) ∧
        (s.txEn = true ∨ s.rxEn = true → t.cfg = s.cfg)) ∧
    (ops = enableTransmit → h.result = some t.err.code ∧ (t.err = .ok → t.txEn = true)) ∧
    (ops = disableTransmit → t.err = .ok ∧ t.txEn = false) ∧
    (∀ c : Code, ops = sendCode c ∨ ops = sendBits c → h.result = some t.err.code ∧ t.txCode = c) ∧
    (ops = enableReceive → h.result = some t.err.code ∧ (t.err = .ok → t.rxEn = true)) ∧
    (ops = disableReceive → t.err = .ok → t.rxEn = false) ∧
    (ops = pollReceived → pollResult h.reads = if t.poll.valid = true then some (t.poll.code, t.poll.ts) else none)

/-- R161: an instance does not receive what it sends itself; on a wire that the first instance drives, a pad event of the
second sees the first's PIN_OUT, and is an EDGE stamped with the second's own NOW where that is a transition. The level of
an undriven wire is any (log 21). -/
def Obligations.LoopbackNeedsTwoInstances : Prop :=
  (∀ (s : State) (level : Bool), s.Inv → s.txEn = true →
      padChange level s = .next { s with pin := { s.pin with inp := level } }) ∧
    (∀ (p : Pair) (level : Bool), p.first.pin.oe = true → p.second.rxEn = true → p.first.pin.out ≠ p.second.pin.inp →
      wireTurn (.second (.pad level)) p =
        andThen (edge p.second.now { p.second with busResp := none, pin := { p.second.pin with inp := p.first.pin.out } })
          fun b => .next { p with second := b }) ∧
    ∀ (p : Pair) (level : Bool), p.first.pin.oe = false →
      wireTurn (.second (.pad level)) p =
        andThen (handle (.pad level) { p.second with busResp := none }) fun b => .next { p with second := b }

/-! ## The whole machine -/

/-- R149 with R48: power-on is a reset; the reset event, and what the registers then read. The pad's level and the parameters are not state
that reset sets; that the list of events stays is log 15's. -/
def Obligations.ResetEventRule : Prop :=
  handle .reset State.reset = .next State.reset ∧
  ∀ s : State, ∃ t, handle .reset s = .next t ∧
    t.cfg = { proto := 0#3, pulseOverride := 0#16, txRepeat := 0#16, bitLength := 0#7, tol := 0#7, gpioId := 0#8,
              minTrans := 6#8, rejectZero := true } ∧
    t.txEn = false ∧ t.rxEn = false ∧ t.busy = false ∧ t.err = .ok ∧ t.txCode = 0#64 ∧
    t.eng = { txq := [], segLeft := 0#32, txWait := 0#32 } ∧ t.pin = { out := false, oe := false, inp := s.pin.inp } ∧
    t.cap = { lastTs := 0#32, changeCount := 0#7, syncCount := 0#32, buf := Vector.replicate 68 0#32 } ∧
    t.mb = { valid := false, code := 0#64, ts := 0#32 } ∧ t.poll = { valid := false, code := 0#64, ts := 0#32 } ∧
    t.now = 0#32 ∧ t.par = s.par ∧ regRead 0x018 t = 0x00000106#32 ∧
    ∀ off < 0x300, off ≠ 0x018 → off ≠ 0x050 → regRead off t = 0#32

/-- R17: a configuration field changes only by a host write to its register with both roles disabled, or by reset; a
locked write is ignored. -/
def Obligations.ConfigurationLock : Prop :=
  (∀ s t : State, step s = .next t → t.cfg ≠ s.cfg → s.nextEvent = .reset ∨
      (s.txEn = false ∧ s.rxEn = false ∧ ∃ off v r, admittedWrite s.par s.nextEvent = some (off, v) ∧ off ≤ 0x018 ∧
        regAt off = some r ∧ t.cfg = writeCfg r v s.cfg)) ∧
    (∀ s t : State, step s = .next t → s.nextEvent ≠ .reset →
      (t.cfg.proto ≠ s.cfg.proto → ∃ v, admittedWrite s.par s.nextEvent = some (0x000, v)) ∧
        (t.cfg.pulseOverride ≠ s.cfg.pulseOverride → ∃ v, admittedWrite s.par s.nextEvent = some (0x004, v)) ∧
        (t.cfg.txRepeat ≠ s.cfg.txRepeat → ∃ v, admittedWrite s.par s.nextEvent = some (0x008, v)) ∧
        (t.cfg.bitLength ≠ s.cfg.bitLength → ∃ v, admittedWrite s.par s.nextEvent = some (0x00C, v)) ∧
        (t.cfg.tol ≠ s.cfg.tol → ∃ v, admittedWrite s.par s.nextEvent = some (0x010, v)) ∧
        (t.cfg.gpioId ≠ s.cfg.gpioId → ∃ v, admittedWrite s.par s.nextEvent = some (0x014, v)) ∧
        (t.cfg.minTrans ≠ s.cfg.minTrans ∨ t.cfg.rejectZero ≠ s.cfg.rejectZero →
          ∃ v, admittedWrite s.par s.nextEvent = some (0x018, v))) ∧
    ∀ (s : State) (off : Nat) (v : Word), s.txEn = true ∨ s.rxEn = true → off ≤ 0x018 → off % 4 = 0 →
      access { target := .offset off, nbytes := 4, kind := .write v } s = .next { s with busResp := some .written }

/-- R18 and R19: the roles are written only by their own commands and reset. -/
def Obligations.RolesWrittenByTheirCommands : Prop :=
  (∀ s t : State, step s = .next t →
      (t.txEn ≠ s.txEn → s.nextEvent = .reset ∨ issued s.par s.nextEvent = some .enableTx ∨
        issued s.par s.nextEvent = some .disableTx) ∧
      (t.rxEn ≠ s.rxEn → s.nextEvent = .reset ∨ issued s.par s.nextEvent = some .enableRx ∨
        issued s.par s.nextEvent = some .disableRx)) ∧
    (∀ s : State, (regRead 0x024 s).getLsbD 0 = s.txEn ∧ (regRead 0x024 s).getLsbD 1 = s.rxEn) ∧
    State.reset.txEn = false ∧ State.reset.rxEn = false ∧
    ∀ (s : State) (level : Bool), s.rxEn = true → level ≠ s.pin.inp →
      padChange level s = edge s.now { s with pin := { s.pin with inp := level } }

/-- R129 with R30: who writes the mailbox and the poll result. -/
def Obligations.MailboxAndPollWriters : Prop :=
  (∀ s t : State, step s = .next t → t.mb ≠ s.mb →
      (t.mb = { valid := false, code := 0#64, ts := 0#32 } ∧
        (s.nextEvent = .reset ∨ (issued s.par s.nextEvent = some .enableRx ∧ s.rxEn = false) ∨
          (issued s.par s.nextEvent = some .disableRx ∧ s.rxEn = true) ∨ issued s.par s.nextEvent = some .poll)) ∨
      (t.mb.valid = true ∧ s.rxEn = true ∧ ∃ level, s.nextEvent = .pad level)) ∧
    (∀ s t : State, step s = .next t → t.poll ≠ s.poll →
      s.nextEvent = .reset ∨ issued s.par s.nextEvent = some .poll) ∧
    ∀ s : State, s.Inv → s.rxEn = false → s.mb = { valid := false, code := 0#64, ts := 0#32 }

/-- R31 with R81: NOW counts ticks modulo 2^32 and nothing but a tick or reset writes it; the table and the other
parameters never change. -/
def Obligations.NowCountsTicksAndTableIsConstant : Prop :=
  ∀ s t : State, step s = .next t →
    t.par = s.par ∧
      (s.nextEvent = .tick → t.now.toNat = (s.now.toNat + 1) % 2 ^ 32) ∧
      (s.nextEvent = .reset → t.now = 0#32) ∧
      (s.nextEvent ≠ .tick → s.nextEvent ≠ .reset → t.now = s.now)

/-- R48, R82, R83: the state after reset meets the invariant. The pad's level and the bus fields are the model's. -/
def Obligations.ResetMeetsInvariant : Prop := State.reset.Inv

/-- R15, I1 to I5, with the facts they rest on: from every state that meets the invariant a step answers a next state
that meets it, and while a role is enabled the configuration does not change but by reset. -/
def Obligations.EveryStepKeepsInvariant : Prop :=
  ∀ s : State, s.Inv → ∃ t, step s = .next t ∧ t.Inv ∧
    (s.txEn = true ∨ s.rxEn = true → s.nextEvent ≠ .reset → t.cfg = s.cfg)
end

