-- ==== Sys2Proof/Laws/State.lean ====
section
/-! SUPPORT. One lemma per field of State and per named update of it. -/

namespace Sys2Proof.Machine

@[simp] theorem setErr_par (c : ErrCode) (s : State) : (setErr c s).par = s.par := rfl
@[simp] theorem setErr_cfg (c : ErrCode) (s : State) : (setErr c s).cfg = s.cfg := rfl
@[simp] theorem setErr_txEn (c : ErrCode) (s : State) : (setErr c s).txEn = s.txEn := rfl
@[simp] theorem setErr_rxEn (c : ErrCode) (s : State) : (setErr c s).rxEn = s.rxEn := rfl
@[simp] theorem setErr_busy (c : ErrCode) (s : State) : (setErr c s).busy = s.busy := rfl
@[simp] theorem setErr_err (c : ErrCode) (s : State) : (setErr c s).err = c := rfl
@[simp] theorem setErr_txCode (c : ErrCode) (s : State) : (setErr c s).txCode = s.txCode := rfl
@[simp] theorem setErr_eng (c : ErrCode) (s : State) : (setErr c s).eng = s.eng := rfl
@[simp] theorem setErr_pin (c : ErrCode) (s : State) : (setErr c s).pin = s.pin := rfl
@[simp] theorem setErr_cap (c : ErrCode) (s : State) : (setErr c s).cap = s.cap := rfl
@[simp] theorem setErr_mb (c : ErrCode) (s : State) : (setErr c s).mb = s.mb := rfl
@[simp] theorem setErr_poll (c : ErrCode) (s : State) : (setErr c s).poll = s.poll := rfl
@[simp] theorem setErr_now (c : ErrCode) (s : State) : (setErr c s).now = s.now := rfl
@[simp] theorem setErr_busResp (c : ErrCode) (s : State) : (setErr c s).busResp = s.busResp := rfl
@[simp] theorem setErr_inputs (c : ErrCode) (s : State) : (setErr c s).inputs = s.inputs := rfl

@[simp] theorem clearRx_par (s : State) : (clearRx s).par = s.par := rfl
@[simp] theorem clearRx_cfg (s : State) : (clearRx s).cfg = s.cfg := rfl
@[simp] theorem clearRx_txEn (s : State) : (clearRx s).txEn = s.txEn := rfl
@[simp] theorem clearRx_rxEn (s : State) : (clearRx s).rxEn = s.rxEn := rfl
@[simp] theorem clearRx_busy (s : State) : (clearRx s).busy = s.busy := rfl
@[simp] theorem clearRx_err (s : State) : (clearRx s).err = s.err := rfl
@[simp] theorem clearRx_txCode (s : State) : (clearRx s).txCode = s.txCode := rfl
@[simp] theorem clearRx_eng (s : State) : (clearRx s).eng = s.eng := rfl
@[simp] theorem clearRx_pin (s : State) : (clearRx s).pin = s.pin := rfl
@[simp] theorem clearRx_cap (s : State) : (clearRx s).cap = Capture.cleared := rfl
@[simp] theorem clearRx_mb (s : State) : (clearRx s).mb = CodeSlot.empty := rfl
@[simp] theorem clearRx_poll (s : State) : (clearRx s).poll = s.poll := rfl
@[simp] theorem clearRx_now (s : State) : (clearRx s).now = s.now := rfl
@[simp] theorem clearRx_busResp (s : State) : (clearRx s).busResp = s.busResp := rfl
@[simp] theorem clearRx_inputs (s : State) : (clearRx s).inputs = s.inputs := rfl

@[simp] theorem startSegment_par (g : Segment) (gs : List Segment) (s : State) : (startSegment g gs s).par = s.par := rfl
@[simp] theorem startSegment_cfg (g : Segment) (gs : List Segment) (s : State) : (startSegment g gs s).cfg = s.cfg := rfl
@[simp] theorem startSegment_txEn (g : Segment) (gs : List Segment) (s : State) : (startSegment g gs s).txEn = s.txEn := rfl
@[simp] theorem startSegment_rxEn (g : Segment) (gs : List Segment) (s : State) : (startSegment g gs s).rxEn = s.rxEn := rfl
@[simp] theorem startSegment_busy (g : Segment) (gs : List Segment) (s : State) : (startSegment g gs s).busy = s.busy := rfl
@[simp] theorem startSegment_err (g : Segment) (gs : List Segment) (s : State) : (startSegment g gs s).err = s.err := rfl
@[simp] theorem startSegment_txCode (g : Segment) (gs : List Segment) (s : State) : (startSegment g gs s).txCode = s.txCode := rfl
@[simp] theorem startSegment_eng (g : Segment) (gs : List Segment) (s : State) : (startSegment g gs s).eng = { txq := gs, segLeft := g.dur, txWait := s.eng.txWait } := rfl
@[simp] theorem startSegment_pin (g : Segment) (gs : List Segment) (s : State) : (startSegment g gs s).pin = { out := g.level, oe := s.pin.oe, inp := s.pin.inp } := rfl
@[simp] theorem startSegment_cap (g : Segment) (gs : List Segment) (s : State) : (startSegment g gs s).cap = s.cap := rfl
@[simp] theorem startSegment_mb (g : Segment) (gs : List Segment) (s : State) : (startSegment g gs s).mb = s.mb := rfl
@[simp] theorem startSegment_poll (g : Segment) (gs : List Segment) (s : State) : (startSegment g gs s).poll = s.poll := rfl
@[simp] theorem startSegment_now (g : Segment) (gs : List Segment) (s : State) : (startSegment g gs s).now = s.now := rfl
@[simp] theorem startSegment_busResp (g : Segment) (gs : List Segment) (s : State) : (startSegment g gs s).busResp = s.busResp := rfl
@[simp] theorem startSegment_inputs (g : Segment) (gs : List Segment) (s : State) : (startSegment g gs s).inputs = s.inputs := rfl

@[simp] theorem publish_par (n : Nat) (ts : Word) (s : State) : (publish n ts s).par = s.par := rfl
@[simp] theorem publish_cfg (n : Nat) (ts : Word) (s : State) : (publish n ts s).cfg = s.cfg := rfl
@[simp] theorem publish_txEn (n : Nat) (ts : Word) (s : State) : (publish n ts s).txEn = s.txEn := rfl
@[simp] theorem publish_rxEn (n : Nat) (ts : Word) (s : State) : (publish n ts s).rxEn = s.rxEn := rfl
@[simp] theorem publish_busy (n : Nat) (ts : Word) (s : State) : (publish n ts s).busy = s.busy := rfl
@[simp] theorem publish_err (n : Nat) (ts : Word) (s : State) : (publish n ts s).err = s.err := rfl
@[simp] theorem publish_txCode (n : Nat) (ts : Word) (s : State) : (publish n ts s).txCode = s.txCode := rfl
@[simp] theorem publish_eng (n : Nat) (ts : Word) (s : State) : (publish n ts s).eng = s.eng := rfl
@[simp] theorem publish_pin (n : Nat) (ts : Word) (s : State) : (publish n ts s).pin = s.pin := rfl
@[simp] theorem publish_cap (n : Nat) (ts : Word) (s : State) : (publish n ts s).cap = s.cap := rfl
@[simp] theorem publish_mb (n : Nat) (ts : Word) (s : State) : (publish n ts s).mb = { valid := true, code := BitVec.ofNat 64 n, ts := ts } := rfl
@[simp] theorem publish_poll (n : Nat) (ts : Word) (s : State) : (publish n ts s).poll = s.poll := rfl
@[simp] theorem publish_now (n : Nat) (ts : Word) (s : State) : (publish n ts s).now = s.now := rfl
@[simp] theorem publish_busResp (n : Nat) (ts : Word) (s : State) : (publish n ts s).busResp = s.busResp := rfl
@[simp] theorem publish_inputs (n : Nat) (ts : Word) (s : State) : (publish n ts s).inputs = s.inputs := rfl

@[simp] theorem countSync_par (s : State) : (countSync s).par = s.par := rfl
@[simp] theorem countSync_cfg (s : State) : (countSync s).cfg = s.cfg := rfl
@[simp] theorem countSync_txEn (s : State) : (countSync s).txEn = s.txEn := rfl
@[simp] theorem countSync_rxEn (s : State) : (countSync s).rxEn = s.rxEn := rfl
@[simp] theorem countSync_busy (s : State) : (countSync s).busy = s.busy := rfl
@[simp] theorem countSync_err (s : State) : (countSync s).err = s.err := rfl
@[simp] theorem countSync_txCode (s : State) : (countSync s).txCode = s.txCode := rfl
@[simp] theorem countSync_eng (s : State) : (countSync s).eng = s.eng := rfl
@[simp] theorem countSync_pin (s : State) : (countSync s).pin = s.pin := rfl
@[simp] theorem countSync_cap (s : State) : (countSync s).cap = { s.cap with syncCount := s.cap.syncCount + 1#32 } := rfl
@[simp] theorem countSync_mb (s : State) : (countSync s).mb = s.mb := rfl
@[simp] theorem countSync_poll (s : State) : (countSync s).poll = s.poll := rfl
@[simp] theorem countSync_now (s : State) : (countSync s).now = s.now := rfl
@[simp] theorem countSync_busResp (s : State) : (countSync s).busResp = s.busResp := rfl
@[simp] theorem countSync_inputs (s : State) : (countSync s).inputs = s.inputs := rfl

@[simp] theorem openFrame_par (d ts : Word) (s : State) : (openFrame d ts s).par = s.par := rfl
@[simp] theorem openFrame_cfg (d ts : Word) (s : State) : (openFrame d ts s).cfg = s.cfg := rfl
@[simp] theorem openFrame_txEn (d ts : Word) (s : State) : (openFrame d ts s).txEn = s.txEn := rfl
@[simp] theorem openFrame_rxEn (d ts : Word) (s : State) : (openFrame d ts s).rxEn = s.rxEn := rfl
@[simp] theorem openFrame_busy (d ts : Word) (s : State) : (openFrame d ts s).busy = s.busy := rfl
@[simp] theorem openFrame_err (d ts : Word) (s : State) : (openFrame d ts s).err = s.err := rfl
@[simp] theorem openFrame_txCode (d ts : Word) (s : State) : (openFrame d ts s).txCode = s.txCode := rfl
@[simp] theorem openFrame_eng (d ts : Word) (s : State) : (openFrame d ts s).eng = s.eng := rfl
@[simp] theorem openFrame_pin (d ts : Word) (s : State) : (openFrame d ts s).pin = s.pin := rfl
@[simp] theorem openFrame_cap (d ts : Word) (s : State) : (openFrame d ts s).cap = { s.cap with buf := s.cap.buf.set 0 d, changeCount := 1#7, lastTs := ts } := rfl
@[simp] theorem openFrame_mb (d ts : Word) (s : State) : (openFrame d ts s).mb = s.mb := rfl
@[simp] theorem openFrame_poll (d ts : Word) (s : State) : (openFrame d ts s).poll = s.poll := rfl
@[simp] theorem openFrame_now (d ts : Word) (s : State) : (openFrame d ts s).now = s.now := rfl
@[simp] theorem openFrame_busResp (d ts : Word) (s : State) : (openFrame d ts s).busResp = s.busResp := rfl
@[simp] theorem openFrame_inputs (d ts : Word) (s : State) : (openFrame d ts s).inputs = s.inputs := rfl

@[simp] theorem respond_par (r : BusResp) (s : State) : (respond r s).par = s.par := rfl
@[simp] theorem respond_cfg (r : BusResp) (s : State) : (respond r s).cfg = s.cfg := rfl
@[simp] theorem respond_txEn (r : BusResp) (s : State) : (respond r s).txEn = s.txEn := rfl
@[simp] theorem respond_rxEn (r : BusResp) (s : State) : (respond r s).rxEn = s.rxEn := rfl
@[simp] theorem respond_busy (r : BusResp) (s : State) : (respond r s).busy = s.busy := rfl
@[simp] theorem respond_err (r : BusResp) (s : State) : (respond r s).err = s.err := rfl
@[simp] theorem respond_txCode (r : BusResp) (s : State) : (respond r s).txCode = s.txCode := rfl
@[simp] theorem respond_eng (r : BusResp) (s : State) : (respond r s).eng = s.eng := rfl
@[simp] theorem respond_pin (r : BusResp) (s : State) : (respond r s).pin = s.pin := rfl
@[simp] theorem respond_cap (r : BusResp) (s : State) : (respond r s).cap = s.cap := rfl
@[simp] theorem respond_mb (r : BusResp) (s : State) : (respond r s).mb = s.mb := rfl
@[simp] theorem respond_poll (r : BusResp) (s : State) : (respond r s).poll = s.poll := rfl
@[simp] theorem respond_now (r : BusResp) (s : State) : (respond r s).now = s.now := rfl
@[simp] theorem respond_busResp (r : BusResp) (s : State) : (respond r s).busResp = some r := rfl
@[simp] theorem respond_inputs (r : BusResp) (s : State) : (respond r s).inputs = s.inputs := rfl

@[simp] theorem State.take_par (es : List Event) (s : State) : (State.take es s).par = s.par := rfl
@[simp] theorem State.take_cfg (es : List Event) (s : State) : (State.take es s).cfg = s.cfg := rfl
@[simp] theorem State.take_txEn (es : List Event) (s : State) : (State.take es s).txEn = s.txEn := rfl
@[simp] theorem State.take_rxEn (es : List Event) (s : State) : (State.take es s).rxEn = s.rxEn := rfl
@[simp] theorem State.take_busy (es : List Event) (s : State) : (State.take es s).busy = s.busy := rfl
@[simp] theorem State.take_err (es : List Event) (s : State) : (State.take es s).err = s.err := rfl
@[simp] theorem State.take_txCode (es : List Event) (s : State) : (State.take es s).txCode = s.txCode := rfl
@[simp] theorem State.take_eng (es : List Event) (s : State) : (State.take es s).eng = s.eng := rfl
@[simp] theorem State.take_pin (es : List Event) (s : State) : (State.take es s).pin = s.pin := rfl
@[simp] theorem State.take_cap (es : List Event) (s : State) : (State.take es s).cap = s.cap := rfl
@[simp] theorem State.take_mb (es : List Event) (s : State) : (State.take es s).mb = s.mb := rfl
@[simp] theorem State.take_poll (es : List Event) (s : State) : (State.take es s).poll = s.poll := rfl
@[simp] theorem State.take_now (es : List Event) (s : State) : (State.take es s).now = s.now := rfl
@[simp] theorem State.take_busResp (es : List Event) (s : State) : (State.take es s).busResp = none := rfl
@[simp] theorem State.take_inputs (es : List Event) (s : State) : (State.take es s).inputs = es := rfl

@[simp] theorem resetStep_par (s : State) : (resetStep s).par = s.par := rfl
@[simp] theorem resetStep_cfg (s : State) : (resetStep s).cfg = State.reset.cfg := rfl
@[simp] theorem resetStep_txEn (s : State) : (resetStep s).txEn = State.reset.txEn := rfl
@[simp] theorem resetStep_rxEn (s : State) : (resetStep s).rxEn = State.reset.rxEn := rfl
@[simp] theorem resetStep_busy (s : State) : (resetStep s).busy = State.reset.busy := rfl
@[simp] theorem resetStep_err (s : State) : (resetStep s).err = State.reset.err := rfl
@[simp] theorem resetStep_txCode (s : State) : (resetStep s).txCode = State.reset.txCode := rfl
@[simp] theorem resetStep_eng (s : State) : (resetStep s).eng = State.reset.eng := rfl
@[simp] theorem resetStep_pin (s : State) : (resetStep s).pin = { out := false, oe := false, inp := s.pin.inp } := rfl
@[simp] theorem resetStep_cap (s : State) : (resetStep s).cap = State.reset.cap := rfl
@[simp] theorem resetStep_mb (s : State) : (resetStep s).mb = State.reset.mb := rfl
@[simp] theorem resetStep_poll (s : State) : (resetStep s).poll = State.reset.poll := rfl
@[simp] theorem resetStep_now (s : State) : (resetStep s).now = State.reset.now := rfl
@[simp] theorem resetStep_busResp (s : State) : (resetStep s).busResp = State.reset.busResp := rfl
@[simp] theorem resetStep_inputs (s : State) : (resetStep s).inputs = s.inputs := rfl

@[simp] theorem setEng_par (e : Engine) (s : State) : (setEng e s).par = s.par := rfl
@[simp] theorem setEng_cfg (e : Engine) (s : State) : (setEng e s).cfg = s.cfg := rfl
@[simp] theorem setEng_txEn (e : Engine) (s : State) : (setEng e s).txEn = s.txEn := rfl
@[simp] theorem setEng_rxEn (e : Engine) (s : State) : (setEng e s).rxEn = s.rxEn := rfl
@[simp] theorem setEng_busy (e : Engine) (s : State) : (setEng e s).busy = s.busy := rfl
@[simp] theorem setEng_err (e : Engine) (s : State) : (setEng e s).err = s.err := rfl
@[simp] theorem setEng_txCode (e : Engine) (s : State) : (setEng e s).txCode = s.txCode := rfl
@[simp] theorem setEng_eng (e : Engine) (s : State) : (setEng e s).eng = e := rfl
@[simp] theorem setEng_pin (e : Engine) (s : State) : (setEng e s).pin = s.pin := rfl
@[simp] theorem setEng_cap (e : Engine) (s : State) : (setEng e s).cap = s.cap := rfl
@[simp] theorem setEng_mb (e : Engine) (s : State) : (setEng e s).mb = s.mb := rfl
@[simp] theorem setEng_poll (e : Engine) (s : State) : (setEng e s).poll = s.poll := rfl
@[simp] theorem setEng_now (e : Engine) (s : State) : (setEng e s).now = s.now := rfl
@[simp] theorem setEng_busResp (e : Engine) (s : State) : (setEng e s).busResp = s.busResp := rfl
@[simp] theorem setEng_inputs (e : Engine) (s : State) : (setEng e s).inputs = s.inputs := rfl

@[simp] theorem endSend_par (s : State) : (endSend s).par = s.par := rfl
@[simp] theorem endSend_cfg (s : State) : (endSend s).cfg = s.cfg := rfl
@[simp] theorem endSend_txEn (s : State) : (endSend s).txEn = s.txEn := rfl
@[simp] theorem endSend_rxEn (s : State) : (endSend s).rxEn = s.rxEn := rfl
@[simp] theorem endSend_busy (s : State) : (endSend s).busy = false := rfl
@[simp] theorem endSend_err (s : State) : (endSend s).err = s.err := rfl
@[simp] theorem endSend_txCode (s : State) : (endSend s).txCode = s.txCode := rfl
@[simp] theorem endSend_eng (s : State) : (endSend s).eng = s.eng := rfl
@[simp] theorem endSend_pin (s : State) : (endSend s).pin = { out := false, oe := s.pin.oe, inp := s.pin.inp } := rfl
@[simp] theorem endSend_cap (s : State) : (endSend s).cap = s.cap := rfl
@[simp] theorem endSend_mb (s : State) : (endSend s).mb = s.mb := rfl
@[simp] theorem endSend_poll (s : State) : (endSend s).poll = s.poll := rfl
@[simp] theorem endSend_now (s : State) : (endSend s).now = s.now := rfl
@[simp] theorem endSend_busResp (s : State) : (endSend s).busResp = s.busResp := rfl
@[simp] theorem endSend_inputs (s : State) : (endSend s).inputs = s.inputs := rfl

@[simp] theorem advanceNow_par (s : State) : (advanceNow s).par = s.par := rfl
@[simp] theorem advanceNow_cfg (s : State) : (advanceNow s).cfg = s.cfg := rfl
@[simp] theorem advanceNow_txEn (s : State) : (advanceNow s).txEn = s.txEn := rfl
@[simp] theorem advanceNow_rxEn (s : State) : (advanceNow s).rxEn = s.rxEn := rfl
@[simp] theorem advanceNow_busy (s : State) : (advanceNow s).busy = s.busy := rfl
@[simp] theorem advanceNow_err (s : State) : (advanceNow s).err = s.err := rfl
@[simp] theorem advanceNow_txCode (s : State) : (advanceNow s).txCode = s.txCode := rfl
@[simp] theorem advanceNow_eng (s : State) : (advanceNow s).eng = s.eng := rfl
@[simp] theorem advanceNow_pin (s : State) : (advanceNow s).pin = s.pin := rfl
@[simp] theorem advanceNow_cap (s : State) : (advanceNow s).cap = s.cap := rfl
@[simp] theorem advanceNow_mb (s : State) : (advanceNow s).mb = s.mb := rfl
@[simp] theorem advanceNow_poll (s : State) : (advanceNow s).poll = s.poll := rfl
@[simp] theorem advanceNow_now (s : State) : (advanceNow s).now = s.now + 1#32 := rfl
@[simp] theorem advanceNow_busResp (s : State) : (advanceNow s).busResp = s.busResp := rfl
@[simp] theorem advanceNow_inputs (s : State) : (advanceNow s).inputs = s.inputs := rfl

end Sys2Proof.Machine
end

