-- ==== Sys2Proof/Laws/Ops.lean ====
section
/-! SUPPORT. What each shared operation can do, said once: chaining, running a command, starting a send, the engine's
tick, the walk of the pairs. -/

namespace Sys2Proof.Machine

section
variable {α β : Type} {o : Host.Outcome α Fault Refusal} {f : α → Host.Outcome β Fault Refusal}

@[simp] theorem andThen_next (a : α) : andThen (.next a) f = f a := rfl
@[simp] theorem andThen_fault (r : Fault) : andThen (.fault r) f = .fault r := rfl
@[simp] theorem andThen_refused (r : Refusal) : andThen (.refused r) f = .refused r := rfl

/-- A chain answers a next outcome only through a next outcome of its first part. -/
theorem andThen_eq_next {b : β} (h : andThen o f = .next b) : ∃ a, o = .next a ∧ f a = .next b := by
  cases o with
  | next a => exact ⟨a, rfl, h⟩
  | fault r => cases h
  | refused r => cases h

/-- Chains associate. -/
theorem andThen_assoc {γ : Type} (g : β → Host.Outcome γ Fault Refusal) :
    andThen (andThen o f) g = andThen o fun a => andThen (f a) g := by cases o <;> rfl
end

/-- While BUSY a command only writes ERR = BUSY (R74). -/
theorem runCommand_busy {body : State → Except ErrCode State} {s : State} (h : s.busy = true) :
    runCommand body s = .next (setErr .busy s) := by simp [runCommand, h]

/-- A rejected command only writes its code (R75). -/
theorem runCommand_error {body : State → Except ErrCode State} {s : State} {c : ErrCode} (h : s.busy = false)
    (hb : body s = .error c) : runCommand body s = .next (setErr c s) := by simp [runCommand, h, hb]

/-- An accepted command has its effect and writes OK (R74). -/
theorem runCommand_ok {body : State → Except ErrCode State} {s t : State} (h : s.busy = false) (hb : body s = .ok t) :
    runCommand body s = .next (setErr .ok t) := by simp [runCommand, h, hb]

/-- All that running a command can do. -/
theorem runCommand_cases {body : State → Except ErrCode State} {s u : State} (h : runCommand body s = .next u) :
    (s.busy = true ∧ u = setErr .busy s) ∨
      (s.busy = false ∧ ∃ c, body s = .error c ∧ u = setErr c s) ∨
      (s.busy = false ∧ ∃ t, body s = .ok t ∧ u = setErr .ok t) := by
  cases hb : s.busy with
  | true =>
    rw [runCommand_busy hb] at h
    cases h; exact .inl ⟨rfl, rfl⟩
  | false =>
    cases hr : body s with
    | error c =>
      rw [runCommand_error hb hr] at h
      cases h; exact .inr (.inl ⟨rfl, c, rfl, rfl⟩)
    | ok t =>
      rw [runCommand_ok hb hr] at h
      cases h; exact .inr (.inr ⟨rfl, t, rfl, rfl⟩)

/-- A command always answers a next state. -/
theorem runCommand_next (body : State → Except ErrCode State) (s : State) : ∃ u, runCommand body s = .next u := by
  cases hb : s.busy with
  | true => exact ⟨_, runCommand_busy hb⟩
  | false =>
    cases hr : body s with
    | error c => exact ⟨_, runCommand_error hb hr⟩
    | ok t => exact ⟨_, runCommand_ok hb hr⟩

/-- Every command is one body run under the common checks. -/
theorem exec_eq_runCommand (i : Instr) (s : State) :
    exec i s = runCommand (match i with
      | .nop => fun t => .ok t
      | .enableTx => enableTxBody
      | .disableTx => disableTxBody
      | .sendCode => fun t => startSend (sendCodeWidth t.cfg) (sendCodePattern t.cfg t.txCode) t
      | .sendBits => fun t => startSend t.cfg.bitLength.toNat (sendBitsPattern t.cfg t.txCode) t
      | .enableRx => enableRxBody
      | .disableRx => disableRxBody
      | .poll => pollBody) s := by
  cases i <;> rfl

/-- A command never stops (R139: no trap; R75). -/
theorem exec_next (i : Instr) (s : State) : ∃ u, exec i s = .next u := by
  rw [exec_eq_runCommand]; exact runCommand_next _ s

/-- All that the checks of a send can lead to (R94, R95). -/
theorem startSend_cases (w : Nat) (pat : List Bool) (s : State) :
    (s.txEn = false ∧ startSend w pat s = .error .notEnabled) ∨
      (s.txEn = true ∧ lookup s.par.ptab s.cfg.proto = none ∧ startSend w pat s = .error .invalidProtocol) ∨
      (s.txEn = true ∧ ∃ r, lookup s.par.ptab s.cfg.proto = some r ∧
        (((s.cfg.txRepeat = 0#16 ∨ w < 1 ∨ 64 < w) ∧ startSend w pat s = .error .invalidConfig) ∨
          (s.cfg.txRepeat ≠ 0#16 ∧ 1 ≤ w ∧ w < 64 ∧ 2 ^ w ≤ s.txCode.toNat ∧ startSend w pat s = .error .codeRange) ∨
          (s.cfg.txRepeat ≠ 0#16 ∧ 1 ≤ w ∧ w ≤ 64 ∧ (w < 64 → s.txCode.toNat < 2 ^ w) ∧
            startSend w pat s = .ok (txStart (sendSegments s r pat) s)))) := by
  unfold startSend
  cases ht : s.txEn with
  | false => exact .inl ⟨rfl, rfl⟩
  | true =>
    cases hl : lookup s.par.ptab s.cfg.proto with
    | none => exact .inr (.inl ⟨rfl, rfl, by simp⟩)
    | some r =>
      refine .inr (.inr ⟨rfl, r, rfl, ?_⟩)
      by_cases h0 : s.cfg.txRepeat = 0#16
      · exact .inl ⟨.inl h0, by simp [h0]⟩
      · by_cases hw : w < 1 ∨ 64 < w
        · exact .inl ⟨.inr hw, by simp only [h0, Config.maxBitLen, hw, if_true, if_false, Bool.true_eq_false]⟩
        · by_cases hc : w < 64 ∧ 2 ^ w ≤ s.txCode.toNat
          · refine .inr (.inl ⟨h0, by omega, hc.1, hc.2, ?_⟩)
            simp only [h0, Config.maxBitLen, hw, hc, and_self, if_true, if_false, Bool.true_eq_false]
          · refine .inr (.inr ⟨h0, by omega, by omega, fun hlt => ?_, ?_⟩)
            · exact Nat.lt_of_not_le fun hle => hc ⟨hlt, hle⟩
            · simp only [h0, Config.maxBitLen, hw, hc, if_false, Bool.true_eq_false]

/-- All that starting a send touches: the engine, BUSY and, with no latency, the driven level (R96). -/
theorem txStart_frame (segs : List Segment) (s : State) :
    txStart segs s =
      { s with
        eng := (txStart segs s).eng
        busy := true
        pin := { s.pin with out := (txStart segs s).pin.out } } := by
  unfold txStart
  by_cases h : s.par.txLat = 0#32
  · cases segs <;> simp [h, startSegment]
  · simp [h]

/-- All that the engine's part of a tick can do (R99). -/
theorem engineTick_cases (s : State) :
    (s.busy = false ∧ engineTick s = .next s) ∨
      (s.busy = true ∧ s.eng.txWait ≠ 0#32 ∧
        engineTick s = .next (segmentBoundary (setEng { s.eng with txWait := s.eng.txWait - 1#32 } s))) ∨
      (s.busy = true ∧ s.eng.txWait = 0#32 ∧ s.eng.segLeft = 0#32 ∧ engineTick s = .fault .segmentUnderflow) ∨
      (s.busy = true ∧ s.eng.txWait = 0#32 ∧ s.eng.segLeft ≠ 0#32 ∧
        engineTick s = .next (segmentBoundary (setEng { s.eng with segLeft := s.eng.segLeft - 1#32 } s))) := by
  unfold engineTick
  cases hb : s.busy with
  | false => exact .inl ⟨rfl, by simp⟩
  | true =>
    by_cases hz : s.eng.txWait = 0#32
    · by_cases hs : s.eng.segLeft = 0#32
      · exact .inr (.inr (.inl ⟨rfl, hz, hs, by simp [hz, hs]⟩))
      · exact .inr (.inr (.inr ⟨rfl, hz, hs, by simp [hz, hs]⟩))
    · exact .inr (.inl ⟨rfl, hz, by simp [hz]⟩)

/-- At a boundary the next segment of the queue starts (R99). -/
theorem segmentBoundary_start {s : State} {g : Segment} {gs : List Segment} (hw : s.eng.txWait = 0#32)
    (hl : s.eng.segLeft = 0#32) (hq : s.eng.txq = g :: gs) : segmentBoundary s = startSegment g gs s := by
  simp [segmentBoundary, hw, hl, hq]

/-- At a boundary with an empty queue the send ends (R99). -/
theorem segmentBoundary_end {s : State} (hw : s.eng.txWait = 0#32) (hl : s.eng.segLeft = 0#32)
    (hq : s.eng.txq = []) : segmentBoundary s = endSend s := by
  simp [segmentBoundary, hw, hl, hq]

/-- Between boundaries nothing happens (R99). -/
theorem segmentBoundary_stay {s : State} (h : ¬(s.eng.txWait = 0#32 ∧ s.eng.segLeft = 0#32)) :
    segmentBoundary s = s := by
  simp only [segmentBoundary, h, if_false]

/-- All that a segment boundary can do. -/
theorem segmentBoundary_cases (s : State) :
    (s.eng.txWait = 0#32 ∧ s.eng.segLeft = 0#32 ∧
        ((∃ g gs, s.eng.txq = g :: gs ∧ segmentBoundary s = startSegment g gs s) ∨
          (s.eng.txq = [] ∧ segmentBoundary s = endSend s))) ∨
      (¬(s.eng.txWait = 0#32 ∧ s.eng.segLeft = 0#32) ∧ segmentBoundary s = s) := by
  by_cases h : s.eng.txWait = 0#32 ∧ s.eng.segLeft = 0#32
  · refine .inl ⟨h.1, h.2, ?_⟩
    cases hq : s.eng.txq with
    | nil => exact .inr ⟨rfl, segmentBoundary_end h.1 h.2 hq⟩
    | cons g gs => exact .inl ⟨g, gs, rfl, segmentBoundary_start h.1 h.2 hq⟩
  · exact .inr ⟨h, segmentBoundary_stay h⟩

@[simp] theorem segmentBoundary_par (s : State) : (segmentBoundary s).par = s.par := by
  rcases segmentBoundary_cases s with ⟨_, _, ⟨g, gs, _, h⟩ | ⟨_, h⟩⟩ | ⟨_, h⟩ <;> rw [h] <;> rfl
@[simp] theorem segmentBoundary_cfg (s : State) : (segmentBoundary s).cfg = s.cfg := by
  rcases segmentBoundary_cases s with ⟨_, _, ⟨g, gs, _, h⟩ | ⟨_, h⟩⟩ | ⟨_, h⟩ <;> rw [h] <;> rfl
@[simp] theorem segmentBoundary_txEn (s : State) : (segmentBoundary s).txEn = s.txEn := by
  rcases segmentBoundary_cases s with ⟨_, _, ⟨g, gs, _, h⟩ | ⟨_, h⟩⟩ | ⟨_, h⟩ <;> rw [h] <;> rfl
@[simp] theorem segmentBoundary_rxEn (s : State) : (segmentBoundary s).rxEn = s.rxEn := by
  rcases segmentBoundary_cases s with ⟨_, _, ⟨g, gs, _, h⟩ | ⟨_, h⟩⟩ | ⟨_, h⟩ <;> rw [h] <;> rfl
@[simp] theorem segmentBoundary_err (s : State) : (segmentBoundary s).err = s.err := by
  rcases segmentBoundary_cases s with ⟨_, _, ⟨g, gs, _, h⟩ | ⟨_, h⟩⟩ | ⟨_, h⟩ <;> rw [h] <;> rfl
@[simp] theorem segmentBoundary_txCode (s : State) : (segmentBoundary s).txCode = s.txCode := by
  rcases segmentBoundary_cases s with ⟨_, _, ⟨g, gs, _, h⟩ | ⟨_, h⟩⟩ | ⟨_, h⟩ <;> rw [h] <;> rfl
@[simp] theorem segmentBoundary_cap (s : State) : (segmentBoundary s).cap = s.cap := by
  rcases segmentBoundary_cases s with ⟨_, _, ⟨g, gs, _, h⟩ | ⟨_, h⟩⟩ | ⟨_, h⟩ <;> rw [h] <;> rfl
@[simp] theorem segmentBoundary_mb (s : State) : (segmentBoundary s).mb = s.mb := by
  rcases segmentBoundary_cases s with ⟨_, _, ⟨g, gs, _, h⟩ | ⟨_, h⟩⟩ | ⟨_, h⟩ <;> rw [h] <;> rfl
@[simp] theorem segmentBoundary_poll (s : State) : (segmentBoundary s).poll = s.poll := by
  rcases segmentBoundary_cases s with ⟨_, _, ⟨g, gs, _, h⟩ | ⟨_, h⟩⟩ | ⟨_, h⟩ <;> rw [h] <;> rfl
@[simp] theorem segmentBoundary_now (s : State) : (segmentBoundary s).now = s.now := by
  rcases segmentBoundary_cases s with ⟨_, _, ⟨g, gs, _, h⟩ | ⟨_, h⟩⟩ | ⟨_, h⟩ <;> rw [h] <;> rfl
@[simp] theorem segmentBoundary_busResp (s : State) : (segmentBoundary s).busResp = s.busResp := by
  rcases segmentBoundary_cases s with ⟨_, _, ⟨g, gs, _, h⟩ | ⟨_, h⟩⟩ | ⟨_, h⟩ <;> rw [h] <;> rfl
@[simp] theorem segmentBoundary_inputs (s : State) : (segmentBoundary s).inputs = s.inputs := by
  rcases segmentBoundary_cases s with ⟨_, _, ⟨g, gs, _, h⟩ | ⟨_, h⟩⟩ | ⟨_, h⟩ <;> rw [h] <;> rfl
@[simp] theorem segmentBoundary_pin_oe (s : State) : (segmentBoundary s).pin.oe = s.pin.oe := by
  rcases segmentBoundary_cases s with ⟨_, _, ⟨g, gs, _, h⟩ | ⟨_, h⟩⟩ | ⟨_, h⟩ <;> rw [h] <;> rfl
@[simp] theorem segmentBoundary_pin_inp (s : State) : (segmentBoundary s).pin.inp = s.pin.inp := by
  rcases segmentBoundary_cases s with ⟨_, _, ⟨g, gs, _, h⟩ | ⟨_, h⟩⟩ | ⟨_, h⟩ <;> rw [h] <;> rfl

/-- A walk inside the buffer never leaves it (R122). -/
theorem walkPairs_inside (r : ProtoRow) (delay tol : Nat) (buf : Vector Word 68) :
    ∀ k i code, i + 2 * k ≤ 68 → walkPairs r delay tol buf k i code ≠ .outside
  | 0, _, _, _ => by simp [walkPairs]
  | k + 1, i, code, h => by
    have h1 : i < 68 := by omega
    have h2 : i + 1 < 68 := by omega
    simp only [walkPairs, Vector.getElem?_eq_getElem h1, Vector.getElem?_eq_getElem h2]
    cases pairBit r delay tol buf[i] buf[i + 1] with
    | none => simp
    | some b => exact walkPairs_inside r delay tol buf k (i + 2) _ (by omega)

/-- A walk of k pairs appends at most k bits (R122). -/
theorem walkPairs_bound (r : ProtoRow) (delay tol : Nat) (buf : Vector Word 68) :
    ∀ k i code c, walkPairs r delay tol buf k i code = .code c → c < (code + 1) * 2 ^ k
  | 0, _, code, c, h => by
    simp only [walkPairs, Walk.code.injEq] at h
    omega
  | k + 1, i, code, c, h => by
    unfold walkPairs at h
    split at h
    · split at h
      · rename_i b _
        have hc := walkPairs_bound r delay tol buf k (i + 2) _ c h
        have hb : 2 * code + b.toNat + 1 ≤ 2 * (code + 1) := by cases b <;> simp only [Bool.toNat_true, Bool.toNat_false] <;> omega
        calc c < (2 * code + b.toNat + 1) * 2 ^ k := hc
          _ ≤ 2 * (code + 1) * 2 ^ k := Nat.mul_le_mul_right _ hb
          _ = (code + 1) * 2 ^ (k + 1) := by ring
      · cases h
    · cases h

/-- DECODE writes nothing but the mailbox (R114). -/
theorem decodeFrame_cases {n : Nat} {ts : Word} {s t : State} (h : decodeFrame n ts s = .next t) :
    t = s ∨ ∃ c, c < 2 ^ (n / 2) ∧ gate s.cfg n c = true ∧ t = publish c ts s := by
  unfold decodeFrame at h
  split at h
  · cases h
  · rename_i r _
    simp only at h
    split at h
    · rename_i c hc
      have hb := walkPairs_bound _ _ _ _ _ _ _ _ hc
      split at h
      · rename_i hg
        cases h; exact .inr ⟨c, by simpa using hb, hg, rfl⟩
      · cases h; exact .inl rfl
    · cases h; exact .inl rfl
    · cases h

/-- DECODE answers a next state where the protocol has a row and the pairs are in the buffer (R84, R122). -/
theorem decodeFrame_next {n : Nat} {ts : Word} {s : State} {r : ProtoRow}
    (hr : lookup s.par.ptab s.cfg.proto = some r) (hn : n ≤ 67) : ∃ t, decodeFrame n ts s = .next t := by
  have hin := walkPairs_inside r (frameDelay r s.cap.buf[0]) (frameTol (frameDelay r s.cap.buf[0]) s.cfg.tol) s.cap.buf
    (n / 2) 1 0 (by omega)
  unfold decodeFrame
  rw [hr]
  simp only
  split
  · exact ⟨_, rfl⟩
  · exact ⟨_, rfl⟩
  · rename_i ho; exact absurd ho hin

/-- All that an EDGE step can do to a next state: nothing (noise), a frame boundary, or a data half-pulse (R106). -/
theorem edge_cases {ts : Word} {s t : State} (h : edge ts s = .next t) :
    ((edgeDuration ts s).toNat ≤ 300 ∧ t = s) ∨
      (15000 < (edgeDuration ts s).toNat ∧ ∃ u, t = openFrame (edgeDuration ts s) ts u ∧
        ((s.cap.changeCount.toNat ≤ 2 ∧ u = countSync s) ∨
          (2 < s.cap.changeCount.toNat ∧ decodeFrame (s.cap.changeCount.toNat - 1) ts (countSync s) = .next u))) ∨
      (300 < (edgeDuration ts s).toNat ∧ (edgeDuration ts s).toNat ≤ 15000 ∧ t = dataEdge (edgeDuration ts s) ts s) := by
  unfold edge at h
  simp only at h
  split at h
  · rename_i hd
    cases h; exact .inl ⟨hd, rfl⟩
  · rename_i hd
    have hd : 300 < (edgeDuration ts s).toNat := Nat.lt_of_not_le hd
    split at h
    · rename_i hs
      obtain ⟨u, hu, ht⟩ := andThen_eq_next h
      cases ht
      refine .inr (.inl ⟨hs, u, rfl, ?_⟩)
      split at hu
      · rename_i hc
        simp only [adjustedCount] at hc hu
        refine .inr ⟨by omega, ?_⟩
        rw [show s.cap.changeCount.toNat - 1 = ((s.cap.changeCount.toNat : Int) - 1).toNat by omega]
        exact hu
      · rename_i hc
        simp only [adjustedCount] at hc
        cases hu; exact .inl ⟨by omega, rfl⟩
    · rename_i hs
      cases h; exact .inr (.inr ⟨hd, Nat.le_of_not_lt hs, rfl⟩)

end Sys2Proof.Machine
end

