-- ==== Sys2Proof/Laws/Bus.lean ====
section
/-! SUPPORT. All that a host access, a command word, a pad change and a step can do, said once each. -/

namespace Sys2Proof.Machine

/-- A command word is illegal and only sets ERR, or is one command (R69, R74). -/
theorem command_cases (v : Word) (s : State) :
    ((∃ e, decode v = .error e) ∧ command v s = .next (setErr .illegalCmd s)) ∨
      ∃ i, decode v = .ok i ∧ command v s = exec i s := by
  unfold command
  cases h : decode v with
  | error e => exact .inl ⟨⟨e, rfl⟩, rfl⟩
  | ok i => exact .inr ⟨i, rfl, rfl⟩

/-- A command word never stops the block. -/
theorem command_next (v : Word) (s : State) : ∃ t, command v s = .next t := by
  rcases command_cases v s with ⟨_, h⟩ | ⟨i, _, h⟩
  · exact ⟨_, h⟩
  · rw [h]; exact exec_next i s

/-- A configuration write changes the configuration, and only with both roles disabled (R17). -/
theorem lockedWrite_cases (r : Reg) (v : Word) (s : State) :
    lockedWrite r v s = s ∨
      (s.txEn = false ∧ s.rxEn = false ∧ lockedWrite r v s = { s with cfg := writeCfg r v s.cfg }) := by
  unfold lockedWrite
  split
  · rename_i h
    simp only [unlocked, Bool.and_eq_true, Bool.not_eq_true'] at h
    exact .inr ⟨h.1, h.2, rfl⟩
  · exact .inl rfl

/-- All that a register write can do (R53). -/
theorem regWrite_cases (off : Nat) (v : Word) (s : State) :
    (regAt off = some .cmd ∧ regWrite off v s = command v s) ∨
      (∃ c, regWrite off v s = .next { s with txCode := c }) ∨
      (∃ r, regAt off = some r ∧ regWrite off v s = .next (lockedWrite r v s)) ∨
      (regAt off = none ∧ regWrite off v s = .next s) := by
  unfold regWrite
  split
  · exact .inl ⟨‹_›, rfl⟩
  · exact .inr (.inl ⟨_, rfl⟩)
  · exact .inr (.inl ⟨_, rfl⟩)
  · exact .inr (.inr (.inl ⟨_, ‹_›, rfl⟩))
  · exact .inr (.inr (.inr ⟨‹_›, rfl⟩))

/-- A register write never stops the block. -/
theorem regWrite_next (off : Nat) (v : Word) (s : State) : ∃ t, regWrite off v s = .next t := by
  rcases regWrite_cases off v s with ⟨_, h⟩ | ⟨_, h⟩ | ⟨_, _, h⟩ | ⟨_, h⟩
  · rw [h]; exact command_next v s
  all_goals exact ⟨_, h⟩

/-- A host access is an admitted write, or changes only the bus's answer (R51, R52). -/
theorem access_cases (a : Access) (s : State) :
    (∃ off v, a.kind = .write v ∧ targetOffset s.par a.target = some off ∧ admitted a.nbytes off = true ∧
        access a s = regWrite off v (respond .written s)) ∨
      ∃ r, access a s = .next (respond r s) := by
  unfold access
  cases ht : targetOffset s.par a.target with
  | none => cases hk : a.kind <;> exact .inr ⟨_, rfl⟩
  | some off =>
    by_cases ha : admitted a.nbytes off = true
    · cases hk : a.kind with
      | read => exact .inr ⟨_, by simp only [ha, if_true]; rfl⟩
      | write v => exact .inl ⟨off, v, rfl, rfl, ha, by simp only [ha, if_true]⟩
    · cases hk : a.kind <;> exact .inr ⟨_, by simp only [ha]; rfl⟩

/-- A host access never stops the block (R51). -/
theorem access_next (a : Access) (s : State) : ∃ t, access a s = .next t := by
  rcases access_cases a s with ⟨off, v, _, _, _, h⟩ | ⟨r, h⟩
  · rw [h]; exact regWrite_next off v _
  · exact ⟨_, h⟩

/-- A step is the next event on the state with that event taken (R10; log 1). -/
theorem step_eq (s : State) :
    (s.inputs = [] ∧ step s = handle .tick (s.take [])) ∨
      ∃ e rest, s.inputs = e :: rest ∧ step s = handle e (s.take rest) := by
  unfold step
  cases h : s.inputs with
  | nil => exact .inl ⟨rfl, rfl⟩
  | cons e rest => exact .inr ⟨e, rest, rfl, rfl⟩

end Sys2Proof.Machine
end

