-- ==== Sys2Proof/Laws/PerInstr.lean ====
section
/-! SUPPORT. One lemma per command: its word has the reserved bits 0 and the OP of its row, and decodes to it. -/

namespace Sys2Proof.Laws.CommandWord

/-- What R66 and R68 say of a command's word. -/
def Statement (i : Instr) : Prop :=
  i.wf = true ∧ (encode i).extractLsb' 4 28 = 0#28 ∧ (encode i).extractLsb' 0 4 = i.op ∧ decodeOp i.op = .ok i

theorem nop : Statement .nop := ⟨rfl, by decide, by decide, rfl⟩
theorem enableTx : Statement .enableTx := ⟨rfl, by decide, by decide, rfl⟩
theorem disableTx : Statement .disableTx := ⟨rfl, by decide, by decide, rfl⟩
theorem sendCode : Statement .sendCode := ⟨rfl, by decide, by decide, rfl⟩
theorem sendBits : Statement .sendBits := ⟨rfl, by decide, by decide, rfl⟩
theorem enableRx : Statement .enableRx := ⟨rfl, by decide, by decide, rfl⟩
theorem disableRx : Statement .disableRx := ⟨rfl, by decide, by decide, rfl⟩
theorem poll : Statement .poll := ⟨rfl, by decide, by decide, rfl⟩

end Sys2Proof.Laws.CommandWord
end

