-- ==== Sys2Proof/Laws/Program.lean ====
section
/-! SUPPORT. What a turn of a program, a run and a turn on the wire can do, said once each. -/

namespace Sys2Proof.Machine

/-- An event performed is that event handled, with no answer on the bus yet. -/
theorem perform_eq (e : Event) (s : State) : perform e s = handle e { s with busResp := none } := rfl

/-- An access performed never stops the block. -/
theorem perform_access_next (a : Access) (s : State) : ∃ t, perform (.access a) s = .next t := access_next a _

/-- An issued access: the block's step, then the program goes on from the data read. -/
theorem issue_eq_next {a : Access} {h : ProgramRun} {next : Word → ProgramRun → ProgramRun} {s t : State} {g : ProgramRun}
    (hi : issue a h next s = .next (g, t)) :
    perform (.access a) s = .next t ∧ g = next (readData t) { h with trace := h.trace ++ [a] } := by
  obtain ⟨u, hu, he⟩ := andThen_eq_next hi
  cases he
  exact ⟨hu, rfl⟩

/-- Another agent's turn is its step, counted for a delay in progress. -/
theorem takeTurn_other_eq_next {e : Event} {h g : ProgramRun} {s t : State}
    (hi : takeTurn (.other e) h s = .next (g, t)) : perform e s = .next t ∧ g = h.passed e := by
  obtain ⟨u, hu, he⟩ := andThen_eq_next hi
  cases he
  exact ⟨hu, rfl⟩

/-- A tick or pad change never changes what a program has recorded. -/
@[simp] theorem passed_result (e : Event) (h : ProgramRun) : (h.passed e).result = h.result := by
  unfold ProgramRun.passed; split <;> rfl
@[simp] theorem passed_reads (e : Event) (h : ProgramRun) : (h.passed e).reads = h.reads := by
  unfold ProgramRun.passed; split <;> rfl
@[simp] theorem passed_trace (e : Event) (h : ProgramRun) : (h.passed e).trace = h.trace := by
  unfold ProgramRun.passed; split <;> rfl

@[simp] theorem runTurns_nil (h : ProgramRun) (s : State) : runTurns [] h s = .next (h, s) := rfl

/-- A run goes on from where its first part ends. -/
theorem runTurns_append (xs ys : List Turn) (h : ProgramRun) (s : State) :
    runTurns (xs ++ ys) h s = andThen (runTurns xs h s) fun p => runTurns ys p.1 p.2 := by
  induction xs generalizing h s with
  | nil => rfl
  | cons x xs ih =>
    simp only [List.cons_append, runTurns, andThen_assoc, ih]

/-- A run's first turn and the rest of it. -/
theorem runTurns_cons_eq_next {w : Turn} {ws : List Turn} {h g : ProgramRun} {s t : State}
    (hr : runTurns (w :: ws) h s = .next (g, t)) :
    ∃ h' s', takeTurn w h s = .next (h', s') ∧ runTurns ws h' s' = .next (g, t) := by
  obtain ⟨⟨h', s'⟩, h1, h2⟩ := andThen_eq_next hr
  exact ⟨h', s', h1, h2⟩

/-- On a driven wire the level of an event does not matter (R161). -/
theorem wireEvent_driven {a : State} (h : a.pin.oe = true) (level : Bool) : wireEvent a (.pad level) = .pad a.pin.out := by
  simp [wireEvent, h]

/-- On an undriven wire the event's level stands (log 21). -/
theorem wireEvent_undriven {a : State} (h : a.pin.oe = false) (level : Bool) : wireEvent a (.pad level) = .pad level := by
  simp [wireEvent, h]

end Sys2Proof.Machine
end

