-- ==== Sys2Proof/Tests/Slice0.lean ====
section
/-! SUPPORT. The model's own tests. Expected results are those of spec/95_test_vectors.md (V<n>, P<n>) or written out by hand
from a rule; `TX_LAT` 0 and the rows marked A1 and A6 there are the test's parameters, as in that file. Then, for every
statement with hypotheses, states that meet them. -/

namespace Sys2Proof.Tests

set_option Elab.async false

open Sys2Proof Sys2Proof.Machine

/-! ## States -/

/-- Row 1 with A1. -/
def rowA1 : ProtoRow := ⟨350#16, 1#8, 31#8, 1#8, 3#8, 3#8, 1#8⟩
/-- Row 6 with A6. -/
def rowA6 : ProtoRow := ⟨200#16, 1#8, 10#8, 1#8, 5#8, 1#8, 1#8⟩
def params (lat : Word) : Params := { ptab := ⟨rowA1, rowA1, rowA1, rowA1, rowA1, rowA6⟩, txLat := lat, base := 0x40000000 }

/-- After reset. -/
def idle : State := { State.reset with par := params 0#32 }
/-- Transmit enabled, protocol p, repeat r, length b, code c (the start of V17-V25). -/
def tx (p : BitVec 3) (r : BitVec 16) (b : BitVec 7) (c : Code) : State :=
  { idle with
    txEn := true, txCode := c, pin := { out := false, oe := true, inp := false }
    cfg := { Cfg.reset with proto := p, txRepeat := r, bitLength := b } }
def txLat (lat : Word) : State := { tx 1#3 1#16 1#7 0#64 with par := params lat }
/-- The send of V23, its engine given. -/
def sending (e : Engine) : State :=
  { tx 1#3 1#16 1#7 0#64 with busy := true, eng := e, pin := { out := true, oe := true, inp := false } }
def busy : State := sending ⟨[⟨false, 3150#32⟩, ⟨true, 1050#32⟩, ⟨false, 32550#32⟩], 1050#32, 0#32⟩
/-- A list of words at the start of the buffer. -/
def bufOf (l : List Word) : Vector Word 68 :=
  (l.foldl (fun (p : Nat × Vector Word 68) x => (p.1 + 1, p.2.setIfInBounds p.1 x)) (0, Vector.replicate 68 0#32)).2
/-- Receiving on protocol 1 with a tolerance; the buffer holds the given intervals. -/
def rx (tol : BitVec 7) (last : Word) (l : List Word) : State :=
  { idle with
    rxEn := true, cfg := { Cfg.reset with proto := 1#3, tol := tol }
    cap := { lastTs := last, changeCount := BitVec.ofNat 7 l.length, syncCount := 1#32, buf := bufOf l } }
/-- As ENABLE_RX leaves it. -/
def listening : State := { rx 20#7 0#32 [] with cap := Capture.cleared }
/-- Before a frame's closing edge: sync low, the pairs, sync high. -/
def closing (tol : BitVec 7) (pairs : List (Word × Word)) : State :=
  rx tol 1000000#32 (32550#32 :: pairs.flatMap (fun p => [p.1, p.2]) ++ [1050#32])
/-- The mailbox of P3. -/
def pending : State := { listening with mb := { valid := true, code := 5#64, ts := 1092400#32 } }

/-- The next state of a step, where there is one. -/
def next? (o : Result) : Option State :=
  match o with
  | .next s => some s
  | .fault _ | .refused _ => none
/-- What a register reads after it. -/
def reads (off : Nat) (o : Result) : Option Word := (next? o).map (regRead off)
/-- The program and the block after a run. -/
def runs? (turns : List Turn) (ops : List HostOp) (s : State) : Option (ProgramRun × State) :=
  match runTurns turns (.start ops) s with
  | .next p => some p
  | .fault _ | .refused _ => none
/-- The mailbox after it. -/
def mail (o : Result) : Option (Bool × Code) := (next? o).map fun s => (s.mb.valid, s.mb.code)

/-! ## Well-formedness refuses an ill-formed term of each check -/

theorem test_wf_row : rowA1.wf = true := by decide
theorem test_wf_unit0 : { rowA1 with pulseUnitUs := 0#16 }.wf = false := by decide
theorem test_wf_syncHigh0 : { rowA1 with syncHigh := 0#8 }.wf = false := by decide
theorem test_wf_syncLow0 : { rowA1 with syncLow := 0#8 }.wf = false := by decide
theorem test_wf_zeroHigh0 : { rowA1 with zeroHigh := 0#8 }.wf = false := by decide
theorem test_wf_zeroLow0 : { rowA1 with zeroLow := 0#8 }.wf = false := by decide
theorem test_wf_oneHigh0 : { rowA1 with oneHigh := 0#8 }.wf = false := by decide
theorem test_wf_oneLow0 : { rowA1 with oneLow := 0#8 }.wf = false := by decide
theorem test_wf_params : (params 0#32).wf = true := by decide
theorem test_wf_row1_not_source : { (params 0#32) with ptab := { (params 0#32).ptab with row1 := rowA6 } }.wf = false := by decide
theorem test_wf_row6_bad :
    { (params 0#32) with ptab := { (params 0#32).ptab with row6 := { rowA6 with oneLow := 0#8 } } }.wf = false := by decide
theorem test_wf_base_misaligned : { (params 0#32) with base := 0x40000200 }.wf = false := by decide
theorem test_wf_capbuf68 : (Reg.capbuf 68).wf = false := by decide
theorem test_wf_ptab8 : (Reg.ptab 8 0).wf = false ∧ (Reg.ptab 0 8).wf = false := by decide
theorem test_wf_line : (Line.wr (.capbuf 68) 0#32).wf = false ∧ (Line.rd (.ptab 1 8)).wf = false := by decide

/-! ## Decoding: words written out from R66, R68, R69 (RSV in 31..4, OP in 3..0) -/

theorem test_decode_nop : decode 0b00000000000000000000000000000000#32 = .ok .nop := by rfl
theorem test_decode_enableTx : decode 0b00000000000000000000000000000001#32 = .ok .enableTx := by rfl
theorem test_decode_disableTx : decode 0b00000000000000000000000000000010#32 = .ok .disableTx := by rfl
theorem test_decode_sendCode : decode 0b00000000000000000000000000000011#32 = .ok .sendCode := by rfl
theorem test_decode_sendBits : decode 0b00000000000000000000000000000100#32 = .ok .sendBits := by rfl
theorem test_decode_enableRx : decode 0b00000000000000000000000000000101#32 = .ok .enableRx := by rfl
theorem test_decode_disableRx : decode 0b00000000000000000000000000000110#32 = .ok .disableRx := by rfl
theorem test_decode_poll : decode 0b00000000000000000000000000000111#32 = .ok .poll := by rfl
/-- V6, and the largest reserved OP. -/
theorem test_decode_illegal : decode 0x8#32 = .error .reservedOp ∧ decode 0xF#32 = .error .reservedOp ∧
    decode 0x11#32 = .error .reservedBits ∧ decode 0x80000001#32 = .error .reservedBits := ⟨rfl, rfl, rfl, rfl⟩
theorem test_table_word : decodeTableWord 32 3 = some .sendCode ∧ decodeTableWord 32 8 = none := by decide

/-! ## Commands -/

/-- V5. -/
theorem test_nop : reads 0x024 (exec .nop idle) = some 0#32 := by decide
/-- V8. -/
theorem test_nop_busy : reads 0x024 (exec .nop busy) = some 0x605#32 := by decide
/-- P1. -/
theorem test_enableTx : reads 0x024 (exec .enableTx idle) = some 1#32 ∧ reads 0x050 (exec .enableTx idle) = some 2#32 := by
  decide
/-- V25a. -/
theorem test_enableTx_conflict : reads 0x024 (exec .enableTx listening) = some 0x302#32 := by decide
/-- V25b. -/
theorem test_disableTx : reads 0x050 (exec .disableTx (tx 1#3 1#16 4#7 5#64)) = some 0#32 := by decide
/-- V8. -/
theorem test_disableTx_busy : reads 0x024 (exec .disableTx busy) = some 0x605#32 := by decide
/-- V23: the segment on the pin and the queue behind it. -/
theorem test_sendCode : (next? (exec .sendCode (tx 1#3 1#16 1#7 0#64))).map (fun s => (s.busy, s.pin.out, s.eng)) =
    some (true, true, ⟨[⟨false, 3150#32⟩, ⟨true, 1050#32⟩, ⟨false, 32550#32⟩], 1050#32, 0#32⟩) := by decide
/-- V21, both rows. -/
theorem test_sendCode_range : reads 0x024 (exec .sendCode (tx 1#3 1#16 4#7 16#64)) = some 0x501#32 ∧
    reads 0x024 (exec .sendCode (tx 1#3 1#16 4#7 0x100000000#64)) = some 0x501#32 := by decide
/-- V24. -/
theorem test_sendBits : (next? (exec .sendBits (tx 6#3 1#16 2#7 2#64))).map (fun s => (s.eng.segLeft, s.eng.txq)) =
    some (600#32, [⟨false, 6000#32⟩, ⟨true, 600#32⟩, ⟨false, 600#32⟩, ⟨true, 600#32⟩, ⟨false, 3000#32⟩, ⟨true, 600#32⟩,
      ⟨false, 6000#32⟩]) := by decide
/-- V19, third row. -/
theorem test_sendBits_length : reads 0x024 (exec .sendBits (tx 1#3 1#16 65#7 5#64)) = some 0x401#32 := by decide
/-- P2. -/
theorem test_enableRx : reads 0x024 (exec .enableRx { listening with rxEn := false }) = some 2#32 := by decide
/-- P2: TOL 101. -/
theorem test_enableRx_tol :
    reads 0x024 (exec .enableRx { idle with cfg := { Cfg.reset with proto := 1#3, tol := 101#7 } }) = some 0x400#32 := by
  decide
/-- V46. -/
theorem test_disableRx : reads 0x024 (exec .disableRx pending) = some 0#32 ∧ mail (exec .disableRx pending) = some (false, 0#64) := by
  decide
/-- P2: an idle receiver. -/
theorem test_disableRx_off : reads 0x024 (exec .disableRx idle) = some 0#32 := by decide
/-- P3: the four reads after POLL. -/
theorem test_poll : reads 0x03C (exec .poll pending) = some 1#32 ∧ reads 0x030 (exec .poll pending) = some 5#32 ∧
    reads 0x034 (exec .poll pending) = some 0#32 ∧ reads 0x038 (exec .poll pending) = some 1092400#32 := by decide
/-- V47. -/
theorem test_poll_empty : reads 0x03C (exec .poll idle) = some 0#32 ∧ reads 0x030 (exec .poll idle) = some 0#32 := by decide

/-! ## The other agents -/

/-- V6, V7: an illegal word, also while a send is in progress. -/
theorem test_illegal : reads 0x024 (command 0x11#32 idle) = some 0x700#32 ∧ reads 0x024 (command 8#32 busy) = some 0x705#32 := by
  decide
/-- P2: the lock. -/
theorem test_lock : reads 0x000 (regWrite 0x000 2#32 listening) = some 1#32 := by decide
/-- V10. -/
theorem test_bitlen : reads 0x00C (regWrite 0x00C 0x41#32 idle) = some 65#32 ∧ reads 0x00C (regWrite 0x00C 0x80#32 idle) = some 0#32 := by
  decide
/-- V4, V12, V13. -/
theorem test_reads : regRead 0x018 idle = 0x106#32 ∧ regRead 0x020 idle = 0#32 ∧ regRead 0x01C idle = 0#32 ∧
    regRead (0x300 + 0x20 * 1 + 4 * 2) idle = 31#32 ∧ regRead 0x300 idle = 0#32 := by decide
/-- V11. -/
theorem test_bus_error :
    (next? (access ⟨.offset 0x026, 4, .read⟩ idle)).map State.busResp = some (some (.readError 0#32)) ∧
      (next? (access ⟨.offset 0x024, 2, .read⟩ idle)).map State.busResp = some (some (.readError 0#32)) := by decide
/-- V27, V26: the noise threshold. -/
theorem test_edge_301 : reads 0x100 (edge 301#32 listening) = some 301#32 ∧ reads 0x044 (edge 300#32 listening) = some 0#32 := by
  decide
/-- V28, V29: the sync threshold. -/
theorem test_edge_15001 : reads 0x048 (edge 15000#32 listening) = some 0#32 ∧ reads 0x048 (edge 15001#32 listening) = some 1#32 := by
  decide
/-- V30: the time wraps. -/
theorem test_edge_wrap : reads 0x100 (edge 0x100#32 (rx 20#7 0xFFFFFF00#32 [])) = some 512#32 := by decide
/-- V32: the overflow. -/
theorem test_edge_overflow :
    let s := rx 20#7 86000#32 (20000#32 :: List.replicate 66 1000#32)
    reads 0x044 (edge 87000#32 s) = some 0#32 ∧ reads 0x048 (edge 87000#32 s) = some 0#32 ∧
      reads 0x208 (edge 87000#32 s) = some 1000#32 ∧ reads 0x20C (edge 87000#32 s) = some 0#32 ∧
      reads 0x04C (edge 87000#32 s) = some 87000#32 := by decide +kernel
/-- V34, V35: the tolerance boundary above. -/
theorem test_decode_frame_tol :
    mail (edge 1032550#32 (closing 20#7 [(1260#32, 3150#32), (3150#32, 1050#32), (1050#32, 3150#32)])) = some (true, 2#64) ∧
    mail (edge 1032550#32 (closing 20#7 [(1261#32, 3150#32), (3150#32, 1050#32), (1050#32, 3150#32)])) = some (false, 0#64) := by
  decide
/-- V38: zero wins. -/
theorem test_decode_frame_zero_first :
    mail (edge 1032550#32 (closing 100#7 [(2100#32, 2100#32), (3150#32, 1050#32), (3150#32, 1050#32)])) = some (true, 3#64) := by
  decide
/-- V39, V41: the gate. -/
theorem test_decode_frame_gate :
    mail (edge 1032550#32 (closing 20#7 [(3150#32, 1050#32), (3150#32, 1050#32)])) = some (false, 0#64) ∧
    mail (edge 1032550#32 (closing 20#7 (List.replicate 3 (1050#32, 3150#32)))) = some (false, 0#64) := by decide
/-- V44: 32 ones. -/
theorem test_decode_frame_32 :
    mail (edge 1032550#32 (closing 20#7 (List.replicate 32 (3150#32, 1050#32)))) = some (true, 0xFFFFFFFF#64) := by decide +kernel
/-- V23: the last tick of a send. -/
theorem test_tick_end : reads 0x024 (tick (sending ⟨[], 1#32, 0#32⟩)) = some 1#32 ∧
    reads 0x050 (tick (sending ⟨[], 1#32, 0#32⟩)) = some 2#32 := by decide
/-- R149. -/
theorem test_reset : reads 0x024 (handle .reset busy) = some 0#32 ∧ reads 0x018 (handle .reset busy) = some 0x106#32 := by decide
/-- R66: a word placed by the host is the next step's command. -/
theorem test_step : reads 0x024 (step (idle.withFetchWord 32 1)) = some 1#32 := by decide

/-! ## Witnesses: states that meet the invariant -/

/-- Before the frame of R124: one edge accepted, the sender's sync low in slot 0. -/
def opened : State := rx 20#7 1000000#32 [32550#32]
/-- A receiver at count 67, its buffer full. -/
def full : State := rx 20#7 86000#32 (20000#32 :: List.replicate 66 1000#32)
/-- Before the closing edge of a frame that decodes to 5. -/
def closing5 : State := closing 20#7 [(3150#32, 1050#32), (1050#32, 3150#32), (3150#32, 1050#32)]
/-- A latency of 5 ticks: waiting for the first segment. -/
def waiting : State :=
  { txLat 5#32 with busy := true, eng := ⟨[⟨true, 1050#32⟩, ⟨false, 32550#32⟩], 0#32, 1#32⟩ }

theorem capture_cleared_wf : Capture.cleared.wf := by unfold Capture.wf; decide
theorem witness_inv_idle : idle.Inv :=
  ⟨by decide, by decide, by decide, capture_cleared_wf, by unfold CodeSlot.wf; decide, by unfold CodeSlot.wf; decide, by decide,
    by decide, (fun h => by cases h), by decide, by decide⟩
theorem witness_inv_tx : (tx 1#3 1#16 1#7 0#64).Inv :=
  ⟨by decide, by decide, by decide, capture_cleared_wf, by unfold CodeSlot.wf; decide, by unfold CodeSlot.wf; decide, by decide,
    by decide, (fun h => by cases h), by decide, by decide⟩
theorem witness_inv_tx_latency : (txLat 5#32).Inv :=
  ⟨by decide, by decide, by decide, capture_cleared_wf, by unfold CodeSlot.wf; decide, by unfold CodeSlot.wf; decide, by decide,
    by decide, (fun h => by cases h), by decide, by decide⟩
theorem witness_inv_busy : busy.Inv :=
  ⟨by decide, by decide, by decide, capture_cleared_wf, by unfold CodeSlot.wf; decide, by unfold CodeSlot.wf; decide, by decide,
    by decide, fun _ => by unfold Engine.running; decide, by decide, by decide⟩
theorem witness_inv_waiting : waiting.Inv :=
  ⟨by decide, by decide, by decide, capture_cleared_wf, by unfold CodeSlot.wf; decide, by unfold CodeSlot.wf; decide, by decide,
    by decide, fun _ => by unfold Engine.running; decide, by decide, by decide⟩
theorem witness_inv_listening : listening.Inv :=
  ⟨by decide, by decide, by decide, capture_cleared_wf, by unfold CodeSlot.wf; decide, by unfold CodeSlot.wf; decide, by decide,
    by decide, (fun h => by cases h), by decide, by decide⟩
theorem witness_inv_pending : pending.Inv :=
  ⟨by decide, by decide, by decide, capture_cleared_wf, by unfold CodeSlot.wf; decide, by unfold CodeSlot.wf; decide, by decide,
    by decide, (fun h => by cases h), by decide, by decide⟩
theorem witness_inv_opened : opened.Inv :=
  ⟨by decide, by decide, by decide, by unfold Capture.wf; decide +kernel, by unfold CodeSlot.wf; decide,
    by unfold CodeSlot.wf; decide, by decide, by decide, (fun h => by cases h), by decide, by decide⟩
theorem witness_inv_full : full.Inv :=
  ⟨by decide, by decide, by decide, by unfold Capture.wf; decide +kernel, by unfold CodeSlot.wf; decide,
    by unfold CodeSlot.wf; decide, by decide, by decide, (fun h => by cases h), by decide, by decide⟩
theorem witness_inv_closing5 : closing5.Inv :=
  ⟨by decide, by decide, by decide, by unfold Capture.wf; decide +kernel, by unfold CodeSlot.wf; decide,
    by unfold CodeSlot.wf; decide, by decide, by decide, (fun h => by cases h), by decide, by decide⟩

/-! ## Witnesses of the hypotheses, statement by statement -/

/-- IllegalWordOnlySetsErr, CommandChecksInOrder: the smallest illegal word, the first with a reserved bit, a high one. -/
theorem witness_IllegalWordOnlySetsErr :
    (∀ i, decode 0x8#32 ≠ .ok i) ∧ (∀ i, decode 0x10#32 ≠ .ok i) ∧ ∀ i, decode 0x80000001#32 ≠ .ok i :=
  ⟨fun _ h => (by cases h), fun _ h => (by cases h), fun _ h => (by cases h)⟩
/-- Names at both ends of each range, and the last offset. -/
theorem witness_RegisterMapRoundTrips :
    Reg.cfgProto.wf = true ∧ (Reg.capbuf 0).wf = true ∧ (Reg.capbuf 67).wf = true ∧ (Reg.ptab 0 0).wf = true ∧
      (Reg.ptab 7 7).wf = true ∧ regAt 0x20C = some (.capbuf 67) ∧ regAt 0x3FC = some (.ptab 7 7) ∧ regAt 0x000 = some .cfgProto := by
  decide
theorem witness_StepRunsDecodedCommand :
    (idle.withFetchWord 32 7).inputs = .access (commandWrite 7#32) :: [] ∧ decode 7#32 = .ok .poll := ⟨by decide, rfl⟩
/-- A legal word, while busy and not, and a rejection. -/
theorem witness_CommandChecksInOrder :
    decode 3#32 = .ok .sendCode ∧ busy.busy = true ∧ idle.busy = false ∧
      (next? (exec .sendCode idle)).map State.err = some .notEnabled := ⟨rfl, rfl, rfl, by decide⟩
/-- A rejected command, and a step that is no CMD write. -/
theorem witness_ErrHoldsLastCommandResult :
    (next? (command 3#32 idle)).map State.err = some .notEnabled ∧ (∃ t, step idle = .next t) ∧
      isCommandWrite idle.par idle.nextEvent = false ∧ idle.nextEvent ≠ .reset :=
  ⟨by decide, ⟨_, rfl⟩, by decide, by decide⟩
theorem witness_NopRule :
    idle.busy = false ∧ busy.busy = true ∧ regRead 0x024 { tx 1#3 1#16 1#7 0#64 with err := .roleConflict } = 0x301#32 := by decide
theorem witness_EnableTxRule :
    busy.busy = true ∧ (listening.busy = false ∧ listening.rxEn = true) ∧
      (idle.busy = false ∧ idle.rxEn = false ∧ idle.txEn = false) ∧
      let s := tx 1#3 1#16 1#7 0#64
      s.busy = false ∧ s.rxEn = false ∧ s.txEn = true := by decide
theorem witness_DisableTxRule :
    busy.busy = true ∧ (idle.busy = false ∧ idle.txEn = false) ∧ (tx 1#3 1#16 1#7 0#64).Inv ∧
      (tx 1#3 1#16 1#7 0#64).busy = false ∧ (tx 1#3 1#16 1#7 0#64).txEn = true :=
  ⟨rfl, ⟨rfl, rfl⟩, witness_inv_tx, rfl, rfl⟩
/-- SendCodeRule: protocols 0 and 7 have no row; repeat 0; lengths 0, 65, 127; lengths 1 and 64; codes at both sides of the
range; protocol 6 with codes at both sides of 2 to the 32. -/
theorem witness_SendCodeRule :
    (busy.busy = true ∧ idle.busy = false ∧ idle.txEn = false) ∧
    (lookup (tx 0#3 1#16 1#7 0#64).par.ptab 0#3 = none ∧ lookup (tx 7#3 1#16 1#7 0#64).par.ptab 7#3 = none) ∧
    (lookup (tx 1#3 0#16 1#7 0#64).par.ptab 1#3 = some rowA1 ∧ lookup (tx 6#3 0#16 1#7 0#64).par.ptab 6#3 = some rowA6) ∧
    ((tx 1#3 0#16 1#7 0#64).cfg.txRepeat = 0#16 ∧ (tx 1#3 0xFFFF#16 1#7 0#64).cfg.txRepeat ≠ 0#16) ∧
    ((0#7).toNat < 1 ∧ 64 < (65#7).toNat ∧ 64 < (127#7).toNat ∧ 1 ≤ (1#7).toNat ∧ (64#7).toNat ≤ 64) ∧
    (2 ^ (4#7).toNat ≤ (16#64).toNat ∧ (15#64).toNat < 2 ^ (4#7).toNat ∧
      (0xFFFFFFFFFFFFFFFF#64).toNat < 2 ^ (64#7).toNat) ∧
    (2 ^ 32 ≤ (0x100000000#64).toNat ∧ (0xFFFFFFFF#64).toNat < 2 ^ 32) ∧
    (tx 1#3 1#16 1#7 0#64).busy = false ∧ (tx 1#3 1#16 1#7 0#64).txEn = true := by decide
/-- SendBitsRule: as for SEND_CODE; protocol 6 takes the same clauses. -/
theorem witness_SendBitsRule :
    (busy.busy = true ∧ idle.busy = false ∧ idle.txEn = false) ∧
    (lookup (tx 0#3 1#16 1#7 0#64).par.ptab 0#3 = none ∧ lookup (tx 6#3 1#16 2#7 2#64).par.ptab 6#3 = some rowA6) ∧
    ((tx 1#3 0#16 1#7 0#64).cfg.txRepeat = 0#16 ∧ (tx 1#3 1#16 65#7 5#64).cfg.bitLength.toNat = 65) ∧
    (2 ^ (2#7).toNat ≤ (4#64).toNat ∧ (3#64).toNat < 2 ^ (2#7).toNat ∧ (0xFFFFFFFFFFFFFFFF#64).toNat < 2 ^ (64#7).toNat) ∧
    (tx 6#3 1#16 2#7 2#64).busy = false ∧ (tx 6#3 1#16 2#7 2#64).txEn = true := by decide
/-- EnableRxRule: every refusal, tolerance 100 and 101, and the invariant's clause. -/
theorem witness_EnableRxRule :
    busy.busy = true ∧ ((tx 1#3 1#16 1#7 0#64).busy = false ∧ (tx 1#3 1#16 1#7 0#64).txEn = true) ∧
      (listening.busy = false ∧ listening.txEn = false ∧ listening.rxEn = true) ∧
      (idle.busy = false ∧ idle.txEn = false ∧ idle.rxEn = false ∧ lookup idle.par.ptab idle.cfg.proto = none) ∧
      (lookup idle.par.ptab 1#3 ≠ none ∧ 100 < (101#7).toNat ∧ (100#7).toNat ≤ 100) ∧ idle.Inv :=
  ⟨rfl, ⟨rfl, rfl⟩, ⟨rfl, rfl, rfl⟩, ⟨rfl, rfl, rfl, rfl⟩, by decide, witness_inv_idle⟩
theorem witness_DisableRxRule :
    busy.busy = true ∧ (listening.Inv ∧ listening.rxEn = true) ∧ (idle.Inv ∧ idle.txEn = false) ∧
      (idle.busy = false ∧ idle.rxEn = false ∧ listening.busy = false) ∧
      pending.Inv ∧ pending.rxEn = true ∧ pending.mb.valid = true :=
  ⟨rfl, ⟨witness_inv_listening, rfl⟩, ⟨witness_inv_idle, rfl⟩, ⟨rfl, rfl, rfl⟩, witness_inv_pending, rfl, rfl⟩
theorem witness_PollRule :
    (busy.Inv ∧ busy.busy = true) ∧ (idle.Inv ∧ idle.busy = false ∧ idle.rxEn = false) ∧
      (listening.Inv ∧ listening.busy = false ∧ listening.mb.valid = false) ∧ (∃ t, exec .poll pending = .next t) ∧
      pending.busy = false ∧ pending.mb = { valid := true, code := 5#64, ts := 1092400#32 } :=
  ⟨⟨witness_inv_busy, rfl⟩, ⟨witness_inv_idle, rfl, rfl⟩, ⟨witness_inv_listening, rfl, rfl⟩, ⟨_, rfl⟩, rfl, rfl⟩
/-- A register outside a command's own: at both ends of the window, at a reserved offset, and beyond it. -/
theorem witness_CommandsChangeOnlyTheirRegisters :
    (∀ r, regAt 0x000 = some r → changedBy .poll r = false) ∧ (∀ r, regAt 0x3FC = some r → changedBy .enableRx r = false) ∧
      (∀ r, regAt 0x01C = some r → changedBy .nop r = false) ∧ ∀ r, regAt 0x400 = some r → changedBy .sendCode r = false :=
  ⟨fun _ h => (by cases h; rfl), fun _ h => (by cases h; rfl), fun _ h => (by cases h), fun _ h => (by cases h)⟩
theorem witness_TransmitDurationsAreExact :
    { Cfg.reset with pulseOverride := 400#16 }.pulseOverride ≠ 0#16 ∧ Cfg.reset.pulseOverride = 0#16 ∧ 65535 ≤ 65535 := by
  decide
/-- Protocol 6 and not; the first and last bits. -/
theorem witness_SendCodePatternBits :
    (tx 1#3 1#16 24#7 255#64).cfg.proto ≠ 6#3 ∧ 0 < (tx 1#3 1#16 24#7 255#64).cfg.bitLength.toNat ∧
      23 < (tx 1#3 1#16 24#7 255#64).cfg.bitLength.toNat ∧ (tx 6#3 1#16 0#7 2#64).cfg.proto = 6#3 ∧ 0 < 32 ∧ 31 < 32 := by decide
theorem witness_FrameListDuration : 350 ≤ 65535 ∧ rowA1.isSourceRow1 = true := by decide
theorem witness_TxStartLatchesWaveform : (txLat 5#32).par.txLat ≠ 0#32 ∧ (txLat 0#32).par.txLat = 0#32 := by decide
/-- TickAdvancesEngine: one state per clause. -/
theorem witness_TickAdvancesEngine :
    idle.busy = false ∧ { waiting.eng with txWait := 2#32 }.txWait.toNat > 1 ∧
      (waiting.busy = true ∧ waiting.eng.txWait = 1#32 ∧ waiting.eng.segLeft = 0#32 ∧
        waiting.eng.txq = ⟨true, 1050#32⟩ :: [⟨false, 32550#32⟩]) ∧
      (busy.busy = true ∧ busy.eng.txWait = 0#32 ∧ 1 < busy.eng.segLeft.toNat) ∧
      (let s := sending ⟨[⟨false, 32550#32⟩], 1#32, 0#32⟩
       s.busy = true ∧ s.eng.txWait = 0#32 ∧ s.eng.segLeft = 1#32 ∧ s.eng.txq = ⟨false, 32550#32⟩ :: []) ∧
      let s := sending ⟨[], 1#32, 0#32⟩
      s.busy = true ∧ s.eng.txWait = 0#32 ∧ s.eng.segLeft = 1#32 ∧ s.eng.txq = [] := by decide
/-- AcceptedSendDrivesWaveform: both commands accepted, without and with a latency. -/
theorem witness_AcceptedSendDrivesWaveform :
    (tx 1#3 1#16 1#7 0#64).Inv ∧ (∃ t, exec .sendCode (tx 1#3 1#16 1#7 0#64) = .next t ∧ t.err = .ok) ∧
      (txLat 5#32).Inv ∧ ∃ t, exec .sendBits (txLat 5#32) = .next t ∧ t.err = .ok :=
  ⟨witness_inv_tx, ⟨_, rfl, rfl⟩, witness_inv_tx_latency, ⟨_, rfl, rfl⟩⟩
theorem witness_BusySendCannotBeStopped :
    busy.Inv ∧ busy.busy = true ∧ Event.pad true ≠ .tick ∧ Event.pad true ≠ .reset := ⟨witness_inv_busy, rfl, by decide, by decide⟩
/-- SendCodeOperationWaitsForEnd: a rejected send that is through after four turns, and V23 with its 37800 ticks. -/
theorem witness_SendCodeOperationWaitsForEnd :
    (idle.Inv ∧ idle.busy = false ∧
      (runs? (List.replicate 4 .program) (sendAndWait .sendCode 0#64) idle).map (fun p => (p.1.todo, p.2.err)) =
        some ([], .notEnabled)) ∧
    let s := tx 1#3 1#16 1#7 0#64
    s.Inv ∧ s.busy = false ∧ lookup s.par.ptab s.cfg.proto = some rowA1 ∧
      (∀ w ∈ List.replicate 37800 (Turn.other .tick), w.quiet = true) ∧
      s.par.txLat.toNat + totalDur (sendSegments s rowA1 (sendCodePattern s.cfg 0#64)) ≤
        (List.replicate 37800 (Turn.other .tick)).count (.other .tick) :=
  ⟨⟨witness_inv_idle, rfl, by decide⟩, witness_inv_tx, rfl, rfl, fun w hw => by rw [List.eq_of_mem_replicate hw]; rfl,
    by rw [List.count_replicate_self]; decide +kernel⟩
/-- HostOperationsTakeTheirResults: each operation, through, with a tick or a pad change between. -/
theorem witness_HostOperationsTakeTheirResults :
    (∀ w ∈ [Turn.program, .other .tick, .program, .other (.pad true), .program, .program, .program, .program],
      w.quiet = true) ∧
    (runs? [.program, .other .tick, .program, .other (.pad true), .program, .program, .program, .program]
        (configure 1#32 1#32 0#32 1#32 4#32 20#32) idle).map (fun p => (p.1.todo, p.2.cfg.bitLength)) = some ([], 4#7) ∧
    (runs? [.program, .other .tick, .program] enableTransmit idle).map (fun p => (p.1.todo, p.1.result)) = some ([], some 0#4) ∧
    (runs? [.program, .other .tick, .program] disableTransmit (tx 1#3 1#16 1#7 0#64)).map (fun p => (p.1.todo, p.2.txEn)) =
      some ([], false) ∧
    (runs? [.program, .other .tick, .program] enableReceive idle).map (fun p => (p.1.todo, p.1.result)) = some ([], some 2#4) ∧
    (runs? [.other (.pad true), .program] disableReceive listening).map (fun p => (p.1.todo, p.2.rxEn)) = some ([], false) ∧
    (runs? [.program, .program, .other .tick, .program, .program, .program] pollReceived pending).map
      (fun p => (p.1.todo, pollResult p.1.reads)) = some ([], some (5#64, 1092400#32)) := by decide
/-- LinesAreTheirTransactions: a wait that reads twice, the first time while BUSY; and a `cmd` line. -/
theorem witness_LinesAreTheirTransactions :
    (runs? [.program, .other .tick, .program] [.line .waitIdle] (sending ⟨[], 1#32, 0#32⟩)).map (fun p => (p.1.todo, p.1.trace)) =
      some ([], [readAccess .status, readAccess .status]) ∧
    (ProgramRun.start enableTransmit).todo = .line (.cmd .enableTx) :: [.takeResult false] := by decide
/-- LoopbackNeedsTwoInstances: a driving first instance and a listening second, and an undriven wire. -/
theorem witness_LoopbackNeedsTwoInstances :
    (tx 1#3 1#16 1#7 0#64).Inv ∧ (tx 1#3 1#16 1#7 0#64).txEn = true ∧
      (busy.pin.oe = true ∧ listening.rxEn = true ∧ busy.pin.out ≠ listening.pin.inp) ∧ idle.pin.oe = false :=
  ⟨witness_inv_tx, rfl, by decide, rfl⟩
theorem witness_PadTransitionsAreEdges :
    (listening.rxEn = true ∧ true ≠ listening.pin.inp) ∧ idle.rxEn = false ∧ false = listening.pin.inp ∧
      ∃ t, edge 301#32 listening = .next t := ⟨by decide, by decide, by decide, ⟨_, rfl⟩⟩
theorem witness_EdgeDurationIsModular :
    ({ listening with rxEn := false }).rxEn = false ∧
      ∃ t, exec .enableRx { listening with rxEn := false } = .next t ∧ t.rxEn = true := ⟨rfl, ⟨_, rfl, rfl⟩⟩
/-- Durations 0 and 300. -/
theorem witness_NoiseEdgeChangesNothing :
    (edgeDuration 0#32 listening).toNat ≤ 300 ∧ (edgeDuration 300#32 listening).toNat ≤ 300 := by decide
/-- FrameBoundaryRule: duration 15001; counts 0 and 2; counts 3 and 67 with a decode that ends. -/
theorem witness_FrameBoundaryRule :
    15000 < (edgeDuration 15001#32 listening).toNat ∧ listening.cap.changeCount.toNat ≤ 2 ∧
      (rx 20#7 0#32 [32550#32, 1050#32]).cap.changeCount.toNat ≤ 2 ∧
      2 < (rx 20#7 0#32 [32550#32, 1050#32, 3150#32]).cap.changeCount.toNat ∧
      (∃ u, decodeFrame 2 15001#32 (rx 20#7 0#32 [32550#32, 1050#32, 3150#32]) = .next u) ∧
      (closing5.Inv ∧ closing5.rxEn = true) ∧ full.Inv ∧ full.cap.changeCount.toNat = 67 :=
  ⟨by decide, by decide, by decide, by decide, ⟨_, rfl⟩, ⟨witness_inv_closing5, rfl⟩, witness_inv_full, by decide⟩
/-- DataEdgeRule: durations 301 and 15000; counts 0, 66 and 67. -/
theorem witness_DataEdgeRule :
    300 < (edgeDuration 301#32 listening).toNat ∧ (edgeDuration 15000#32 listening).toNat ≤ 15000 ∧
      67 ≤ full.cap.changeCount.toNat ∧ listening.cap.changeCount.toNat < 67 ∧
      (rx 20#7 0#32 (List.replicate 66 1000#32)).cap.changeCount.toNat = 66 ∧ ∃ t, edge 301#32 listening = .next t :=
  ⟨by decide, by decide, by decide, by decide, by decide, ⟨_, rfl⟩⟩
/-- EdgeWritesOneSlot: noise, a stored interval, a sync, and the overflow at count 67. -/
theorem witness_EdgeWritesOneSlot :
    listening.cap.changeCount.toNat ≤ 67 ∧ (∃ t, edge 300#32 listening = .next t) ∧ (∃ t, edge 301#32 listening = .next t) ∧
      (∃ t, edge 15001#32 listening = .next t) ∧ full.cap.changeCount.toNat ≤ 67 ∧ ∃ t, edge 87000#32 full = .next t :=
  ⟨by decide, ⟨_, rfl⟩, ⟨_, rfl⟩, ⟨_, rfl⟩, by decide, ⟨_, rfl⟩⟩
/-- DecodeWritesOnlyMailbox: a published frame, the largest N, an invariant state. -/
theorem witness_DecodeWritesOnlyMailbox :
    (∃ t, decodeFrame 7 1032550#32 closing5 = .next t ∧ t ≠ closing5) ∧ (next? (decodeFrame 66 0#32 full)).isSome = true ∧
      full.Inv ∧ full.rxEn = true :=
  ⟨⟨{ closing5 with mb := ⟨true, 5#64, 1032550#32⟩ }, rfl, fun h => by cases congrArg (fun s => s.mb.valid) h⟩, by decide +kernel,
    witness_inv_full, rfl⟩
/-- ToleranceBoundary: V34 to V37. -/
theorem witness_ToleranceBoundary :
    (1260#32).toNat = 1050 + 210 ∧ 1050 = (840#32).toNat + 210 ∧ (1261#32).toNat = 1050 + 210 + 1 ∧
      1050 = (839#32).toNat + 210 + 1 := by decide
/-- PairWalkBuildsCode: the three pairs of P3. -/
theorem witness_PairWalkBuildsCode :
    1 + 2 * [true, false, true].length ≤ 68 ∧
      ∀ k b, [true, false, true][k]? = some b → ∃ h l, closing5.cap.buf[1 + 2 * k]? = some h ∧
        closing5.cap.buf[1 + 2 * k + 1]? = some l ∧ pairBit rowA1 1050 210 h l = some b := by
  refine ⟨by decide, fun k b h => ?_⟩
  match k with
  | 0 => exact ⟨3150#32, 1050#32, by decide, by decide, by simpa [pairBit, matchesTemplate, rowA1] using h⟩
  | 1 => exact ⟨1050#32, 3150#32, by decide, by decide, by simpa [pairBit, matchesTemplate, rowA1] using h⟩
  | 2 => exact ⟨3150#32, 1050#32, by decide, by decide, by simpa [pairBit, matchesTemplate, rowA1] using h⟩
  | k + 3 => simp at h
/-- AcceptanceGate: a walk that ends; N = 7 and 6 against the threshold 6; the zero code. -/
theorem witness_AcceptanceGate :
    lookup closing5.par.ptab closing5.cfg.proto = some rowA1 ∧
      walkPairs rowA1 (closing5.cap.buf[0].toNat / rowA1.syncLow.toNat)
        (closing5.cap.buf[0].toNat / rowA1.syncLow.toNat * closing5.cfg.tol.toNat / 100) closing5.cap.buf (7 / 2) 1 0 = .code 5 ∧
      walkPairs rowA1 1050 210 (closing 20#7 [(1050#32, 3150#32)]).cap.buf (3 / 2) 1 0 = .code 0 ∧
      closing5.cfg.minTrans.toNat < 7 ∧ 6 ≤ closing5.cfg.minTrans.toNat ∧ 5 ≠ 0 ∧ closing5.cfg.rejectZero = true := by decide
/-- FailedDecodeIsSilent: V35 at its first pair, and the last pair of the largest frame. -/
theorem witness_FailedDecodeIsSilent :
    7 ≤ 66 ∧ 0 < 7 / 2 ∧ (let s := closing 20#7 [(1261#32, 3150#32), (3150#32, 1050#32), (1050#32, 3150#32)]
      lookup s.par.ptab s.cfg.proto = some rowA1 ∧ s.cap.buf[1 + 2 * 0]? = some 1261#32 ∧
        s.cap.buf[2 + 2 * 0]? = some 3150#32 ∧
        pairBit rowA1 (frameDelay rowA1 s.cap.buf[0]) (frameTol (frameDelay rowA1 s.cap.buf[0]) s.cfg.tol) 1261#32 3150#32 =
          none) ∧
      66 ≤ 66 ∧ 32 < 66 / 2 ∧ lookup full.par.ptab full.cfg.proto = some rowA1 ∧
      full.cap.buf[1 + 2 * 32]? = some 1000#32 ∧ full.cap.buf[2 + 2 * 32]? = some 1000#32 ∧
      pairBit rowA1 (frameDelay rowA1 full.cap.buf[0]) (frameTol (frameDelay rowA1 full.cap.buf[0]) full.cfg.tol) 1000#32 1000#32 =
        none := by decide +kernel
/-- FailedDecodeIsSilent, its other clauses: N = 5 against the threshold 6 (V39), and a published code. -/
theorem witness_FailedDecodeIsSilent_gate :
    (let s := closing 20#7 [(3150#32, 1050#32), (3150#32, 1050#32)]
     (∃ t, decodeFrame 5 0#32 s = .next t) ∧ 5 ≤ s.cfg.minTrans.toNat) ∧
      (∃ t, decodeFrame 7 1032550#32 closing5 = .next t ∧ t ≠ closing5) ∧ closing5.cfg.rejectZero = true :=
  ⟨⟨⟨_, rfl⟩, by decide⟩,
    ⟨{ closing5 with mb := ⟨true, 5#64, 1032550#32⟩ }, rfl, fun h => by cases congrArg (fun s => s.mb.valid) h⟩, rfl⟩
theorem witness_WorkedExampleDecodesZero : rowA1.isSourceRow1 = true := by decide
/-- SentFrameIsDecoded: 3 bits, code 5; and 32 bits, the largest code. -/
theorem witness_SentFrameIsDecoded :
    opened.Inv ∧ opened.rxEn = true ∧ opened.cfg.proto ≠ 6#3 ∧ lookup opened.par.ptab opened.cfg.proto = some rowA1 ∧
      receivable rowA1 (350 * 3) ∧ distinguishable rowA1 (350 * 3) (frameTol (350 * 3) opened.cfg.tol) ∧
      (opened.cfg.minTrans.toNat < 2 * 3 + 1 ∧ (5#64).toNat < 2 ^ 3 ∧ 5#64 ≠ 0#64) ∧
      (opened.cfg.minTrans.toNat < 2 * 32 + 1 ∧ (0xFFFFFFFF#64).toNat < 2 ^ 32) ∧
      opened.cap.changeCount = 1#7 ∧ opened.cap.buf[0].toNat = rowA1.syncLow.toNat * 350 * 3 :=
  ⟨witness_inv_opened, rfl, by decide, rfl, by unfold receivable; decide, by unfold distinguishable apart; decide, by decide,
    by decide, by decide, by decide⟩
/-- SecondEdgeAtSameTimeIsNoise: V33. -/
theorem witness_SecondEdgeAtSameTimeIsNoise : ∃ t, edge 1000#32 listening = .next t := ⟨_, rfl⟩
theorem witness_EdgeAndDisableRxCommute : closing5.Inv ∧ closing5.rxEn = true := ⟨witness_inv_closing5, rfl⟩
/-- OnlyAlignedWordsAdmitted: width 2; offsets 0x026 and 0x400; and offsets 0 and 0x3FC. -/
theorem witness_OnlyAlignedWordsAdmitted :
    ¬(2 = 4 ∧ 0x024 % 4 = 0 ∧ 0x024 < 0x400) ∧ ¬(4 = 4 ∧ 0x026 % 4 = 0 ∧ 0x026 < 0x400) ∧
      ¬(4 = 4 ∧ 0x400 % 4 = 0 ∧ 0x400 < 0x400) ∧ (0x000 % 4 = 0 ∧ 0x000 < 0x400) ∧ 0x3FC % 4 = 0 ∧ 0x3FC < 0x400 := by decide
theorem witness_BusAddressesCountFromBase : 0x3FFFFFFC < idle.par.base := by decide
theorem witness_ReadsHaveNoSideEffect :
    regAt 0x01C = none ∧ regAt 0x2FC = none ∧ (readAccess .status).kind = .read ∧
      ∃ t, access (readAccess .status) idle = .next t := ⟨rfl, rfl, rfl, ⟨_, rfl⟩⟩
/-- RegisterWriteRule: the first and the last configuration register, both sides of the lock, a read-only register. -/
theorem witness_RegisterWriteRule :
    regAt 0x000 = some .cfgProto ∧ regAt 0x018 = some .cfgFilter ∧ idle.txEn = false ∧ idle.rxEn = false ∧
      busy.txEn = true ∧ listening.rxEn = true ∧ 0x018 < 0x01C ∧ 0x018 < 0x024 ∧ 0x024 ≠ 0x020 := by decide
theorem witness_ConfigurationReadsBack :
    idle.txEn = false ∧ idle.rxEn = false ∧ busy.txEn = true ∧ listening.rxEn = true ∧ 0x018 ≤ 0x018 := by decide
/-- RegisterImagesShowState: the two ends of the read-only range. -/
theorem witness_RegisterImagesShowState : 0x030 ≤ 0x030 ∧ 0x030 ≤ 0x050 ∧ 0x050 ≤ 0x050 := by decide
theorem witness_CaptureWindowShowsSlots : 0x210 ≤ 0x210 ∧ 0x2FC ≤ 0x2FC ∧ 0x100 ≤ 0x100 := by decide
theorem witness_TableWindowShowsRows :
    lookup idle.par.ptab 1#3 = some rowA1 ∧ lookup idle.par.ptab 6#3 = some rowA6 ∧ 0 < 8 ∧ 7 < 8 ∧ 0x3FC ≤ 0x3FC := by decide
/-- ResetEventRule: the first offset, the last before the table, one between. -/
theorem witness_ResetEventRule : 0x000 < 0x300 ∧ 0x2FC < 0x300 ∧ 0x024 ≠ 0x018 ∧ 0x024 ≠ 0x050 := by decide
/-- A write of a register as the next event, and what it changes. -/
def writes (r : Reg) (v : Word) : State := { idle with inputs := [.access (writeAccess r v)] }
/-- ConfigurationLock: a step that changes each field, and a locked write. -/
theorem witness_ConfigurationLock :
    (∃ t, step (writes .cfgProto 1#32) = .next t ∧ t.cfg.proto ≠ 0#3) ∧
      (∃ t, step (writes .cfgPulse 1#32) = .next t ∧ t.cfg.pulseOverride ≠ 0#16) ∧
      (∃ t, step (writes .cfgRepeat 1#32) = .next t ∧ t.cfg.txRepeat ≠ 0#16) ∧
      (∃ t, step (writes .cfgBitlen 1#32) = .next t ∧ t.cfg.bitLength ≠ 0#7) ∧
      (∃ t, step (writes .cfgTol 1#32) = .next t ∧ t.cfg.tol ≠ 0#7) ∧
      (∃ t, step (writes .cfgGpio 1#32) = .next t ∧ t.cfg.gpioId ≠ 0#8) ∧
      (∃ t, step (writes .cfgFilter 1#32) = .next t ∧ t.cfg.minTrans ≠ 6#8 ∧ t.cfg.rejectZero ≠ true) ∧
      (writes .cfgTol 1#32).nextEvent ≠ .reset ∧ busy.txEn = true ∧ listening.rxEn = true ∧ 0x018 % 4 = 0 :=
  ⟨⟨_, rfl, by decide⟩, ⟨_, rfl, by decide⟩, ⟨_, rfl, by decide⟩, ⟨_, rfl, by decide⟩, ⟨_, rfl, by decide⟩,
    ⟨_, rfl, by decide⟩, ⟨_, rfl, by decide, by decide⟩, by decide, rfl, rfl, rfl⟩
theorem witness_RolesWrittenByTheirCommands :
    (∃ t, step (idle.withFetchWord 32 1) = .next t ∧ t.txEn ≠ (idle.withFetchWord 32 1).txEn) ∧
      (∃ t, step (listening.withFetchWord 32 6) = .next t ∧ t.rxEn ≠ (listening.withFetchWord 32 6).rxEn) ∧
      listening.rxEn = true ∧ true ≠ listening.pin.inp := ⟨⟨_, rfl, by decide⟩, ⟨_, rfl, by decide⟩, rfl, by decide⟩
theorem witness_MailboxAndPollWriters :
    (∃ t, step (pending.withFetchWord 32 7) = .next t ∧ t.mb ≠ (pending.withFetchWord 32 7).mb ∧
        t.poll ≠ (pending.withFetchWord 32 7).poll) ∧
      (let s : State := { closing5 with now := 1032550#32, inputs := [.pad true] }
       ∃ t, step s = .next t ∧ t.mb ≠ s.mb) ∧ idle.Inv ∧ idle.rxEn = false :=
  ⟨⟨_, rfl, by decide, by decide⟩, ⟨_, rfl, by decide +kernel⟩, witness_inv_idle, rfl⟩
theorem witness_NowCountsTicksAndTableIsConstant :
    (∃ t, step idle = .next t) ∧ idle.nextEvent = .tick ∧ { idle with inputs := [.reset] }.nextEvent = .reset ∧
      (listening.withFetchWord 32 6).nextEvent ≠ .tick ∧ (listening.withFetchWord 32 6).nextEvent ≠ .reset :=
  ⟨⟨_, rfl⟩, by decide, by decide, by decide, by decide⟩
theorem witness_EveryStepKeepsInvariant :
    closing5.Inv ∧ closing5.rxEn = true ∧ closing5.nextEvent ≠ .reset ∧ busy.Inv ∧ busy.txEn = true :=
  ⟨witness_inv_closing5, rfl, by decide, witness_inv_busy, rfl⟩

end Sys2Proof.Tests
end

section
/-! PROOFS. The register map, read and written (10_state.md §10). -/

namespace Sys2Proof.Machine

/-- Above the named registers the map has only its two windows. -/
theorem regAt_of_window {off : Nat} (h : 0x100 ≤ off) :
    regAt off =
      if off % 4 ≠ 0 then none
      else if 0x100 ≤ off ∧ off < 0x210 then some (.capbuf ((off - 0x100) / 4))
      else if 0x300 ≤ off ∧ off < 0x400 then some (.ptab ((off - 0x300) / 0x20) ((off - 0x300) % 0x20 / 4))
      else none := by
  unfold regAt
  split
  case h_21 => rfl
  all_goals omega

theorem regAt_capbuf {i : Nat} (hi : i < 68) : regAt (Reg.capbuf i).offset = some (.capbuf i) := by
  have h1 : (0x100 + 4 * i) % 4 = 0 := by omega
  have h2 : 0x100 + 4 * i < 0x210 := by omega
  simp only [Reg.offset]
  rw [regAt_of_window (by omega)]
  simp [h1, h2]

theorem regAt_ptab {p f : Nat} (hp : p < 8) (hf : f < 8) : regAt (Reg.ptab p f).offset = some (.ptab p f) := by
  have h1 : (0x300 + 0x20 * p + 4 * f) % 4 = 0 := by omega
  have h2 : ¬ 0x300 + 0x20 * p + 4 * f < 0x210 := by omega
  have h3 : 0x300 ≤ 0x300 + 0x20 * p + 4 * f ∧ 0x300 + 0x20 * p + 4 * f < 0x400 := by omega
  have h4 : (0x300 + 0x20 * p + 4 * f - 0x300) / 0x20 = p := by omega
  have h5 : (0x300 + 0x20 * p + 4 * f - 0x300) % 0x20 / 4 = f := by omega
  simp only [Reg.offset]
  rw [regAt_of_window (by omega)]
  simp only [h1, h2, h3, h4, h5, and_false, if_false, and_self, if_true, ne_eq, not_true_eq_false]

/-- Every name of the map stands at its offset (R33). -/
theorem regAt_offset {r : Reg} (h : r.wf = true) : regAt r.offset = some r := by
  cases r with
  | capbuf i => exact regAt_capbuf (by simpa [Reg.wf] using h)
  | ptab p f =>
    simp only [Reg.wf, Bool.and_eq_true, decide_eq_true_eq] at h
    exact regAt_ptab h.1 h.2
  | _ => rfl

/-- Every offset is a word in the window (R33, R49). -/
theorem offset_in_window {r : Reg} (h : r.wf = true) : r.offset % 4 = 0 ∧ r.offset < 0x400 := by
  cases r <;> simp [Reg.wf, Reg.offset] at h ⊢ <;> omega

/-- A register stands at its own offset only (R33). -/
theorem regAt_eq_some {off : Nat} {r : Reg} (h : regAt off = some r) : r.wf = true ∧ r.offset = off := by
  by_cases hw : 0x100 ≤ off
  · rw [regAt_of_window hw] at h
    split at h
    · cases h
    · split at h
      · cases h
        simp [Reg.wf, Reg.offset]
        omega
      · split at h
        · cases h
          simp [Reg.wf, Reg.offset]
          omega
        · cases h
  · unfold regAt at h
    split at h
    case h_21 =>
      have h1 : ¬(0x100 ≤ off ∧ off < 0x210) := by omega
      have h2 : ¬(0x300 ≤ off ∧ off < 0x400) := by omega
      simp only [h1, h2, if_false, ite_self, reduceCtorEq] at h
    all_goals cases h; exact ⟨rfl, rfl⟩

/-- Settles O4: `regAt` and `Reg.offset` are inverse on the names of R33. -/
theorem registerMapRoundTrips : Obligations.RegisterMapRoundTrips :=
  ⟨fun _ hr => ⟨regAt_offset hr, offset_in_window hr⟩, fun _ _ h => regAt_eq_some h⟩

/-- Reading a register's offset reads that register (R52). -/
theorem regRead_offset {r : Reg} (h : r.wf = true) (s : State) : regRead r.offset s = readReg r s := by
  rw [regRead, regAt_offset h]

/-- Where no register stands a read returns 0 (R52). -/
theorem regRead_of_none {off : Nat} (h : regAt off = none) (s : State) : regRead off s = 0#32 := by
  rw [regRead, h]

/-- The registers a bus write can change: configuration, CMD and the halves of TX_CODE (R53). -/
def Reg.writable : Reg → Bool
  | .cfgProto | .cfgPulse | .cfgRepeat | .cfgBitlen | .cfgTol | .cfgGpio | .cfgFilter => true
  | .cmd | .txCodeLo | .txCodeHi => true
  | _ => false

/-- Every writable register lies below STATUS or is a half of TX_CODE (R33). -/
theorem offset_of_writable {r : Reg} (h : r.writable = true) : r.offset < 0x030 := by
  cases r <;> simp [Reg.writable, Reg.offset] at h ⊢

/-- A write elsewhere than at a writable register is dropped (R53). -/
theorem regWrite_dropped {off : Nat} (h : ∀ r, regAt off = some r → r.writable = false) (v : Word) (s : State) :
    regWrite off v s = .next s := by
  unfold regWrite
  cases hr : regAt off with
  | none => rfl
  | some r =>
    have hw := h r hr
    cases r with
    | cfgProto | cfgPulse | cfgRepeat | cfgBitlen | cfgTol | cfgGpio | cfgFilter | cmd | txCodeLo | txCodeHi => cases hw
    | _ => simp [lockedWrite, writeCfg]

/-- From 0x030 on every write is dropped (R43-R47, R53). -/
theorem regWrite_dropped_of_le {off : Nat} (h : 0x030 ≤ off) (v : Word) (s : State) : regWrite off v s = .next s := by
  refine regWrite_dropped (fun r hr => ?_) v s
  obtain ⟨-, ho⟩ := regAt_eq_some hr
  by_contra hw
  have hlt := offset_of_writable (Bool.not_eq_false _ ▸ hw)
  omega

theorem regWrite_status (v : Word) (s : State) : regWrite 0x024 v s = .next s :=
  regWrite_dropped (fun r hr => by cases hr; rfl) v s

end Sys2Proof.Machine
end

section
/-! PROOFS. The capture window and the table window (R46, R47). -/

namespace Sys2Proof.Machine

/-- Settles O48: each slot is read through its register's name, and no register stands in the rest of the window. -/
theorem captureWindowShowsSlots : Obligations.CaptureWindowShowsSlots := by
  intro s
  refine ⟨fun i => ?_, fun off h1 h2 => ?_, fun off v h1 _ => regWrite_dropped_of_le (by omega) v s⟩
  · have hr : regRead (0x100 + 4 * i.val) s = readReg (.capbuf i) s :=
      regRead_offset (r := .capbuf i) (decide_eq_true i.isLt) s
    simp [hr, readReg]
  · refine regRead_of_none ?_ s
    rw [regAt_of_window (by omega)]
    have h3 : ¬(0x100 ≤ off ∧ off < 0x210) := by omega
    have h4 : ¬(0x300 ≤ off ∧ off < 0x400) := by omega
    simp only [h3, h4, if_false, ite_self]

/-- Exactly the ids 0 and 7 have no row (R84). -/
theorem lookup_eq_none (t : ProtoTable) (p : BitVec 3) : lookup t p = none ↔ p = 0#3 ∨ p = 7#3 := by
  obtain ⟨p, hp⟩ := p
  interval_cases p <;> simp [lookup]

theorem regRead_ptab {p f : Nat} (hp : p < 8) (hf : f < 8) (s : State) :
    regRead (0x300 + 0x20 * p + 4 * f) s = tableWord s.par.ptab p f :=
  regRead_offset (r := .ptab p f) (by simp [Reg.wf, hp, hf]) s

theorem tableWord_of_some {t : ProtoTable} {p : BitVec 3} {r : ProtoRow} (h : lookup t p = some r) (f : Nat) :
    tableWord t p.toNat f = rowField r f := by
  simp [tableWord, h, p.isLt]

theorem tableWord_of_none {t : ProtoTable} {p : BitVec 3} (h : lookup t p = none) (f : Nat) :
    tableWord t p.toNat f = 0#32 := by
  simp [tableWord, h]

/-- Settles O49: the word at field f of id p is `tableWord`, which is the row's field or, without a row, 0. -/
theorem tableWindowShowsRows : Obligations.TableWindowShowsRows := by
  intro s
  refine ⟨fun p r hr => ?_, fun f hf => ⟨?_, ?_⟩, lookup_eq_none _,
    fun off v h1 _ => regWrite_dropped_of_le (by omega) v s⟩
  · have field : ∀ f < 8, regRead (0x300 + 0x20 * p.toNat + 4 * f) s = rowField r f := fun f hf => by
      rw [regRead_ptab p.isLt hf, tableWord_of_some hr]
    have at_field : ∀ f < 8, regRead (0x300 + 4 * f + 0x20 * p.toNat) s = rowField r f := fun f hf => by
      rw [← field f hf]
      congr 1
      omega
    exact ⟨at_field 0 (by decide), at_field 1 (by decide), at_field 2 (by decide), at_field 3 (by decide),
      at_field 4 (by decide), at_field 5 (by decide), at_field 6 (by decide), at_field 7 (by decide)⟩
  · exact (regRead_ptab (p := 0) (by decide) hf s).trans
      (tableWord_of_none (p := 0#3) ((lookup_eq_none _ _).2 (.inl rfl)) f)
  · exact (regRead_ptab (p := 7) (by decide) hf s).trans
      (tableWord_of_none (p := 7#3) ((lookup_eq_none _ _).2 (.inr rfl)) f)

end Sys2Proof.Machine
end

section
/-! PROOFS. The bits of the register images (R42-R45). -/

namespace Sys2Proof.Machine

section
variable {w : Nat} (x : BitVec w) (b : Bool)

/-- A flag appended to a word is its bit 0. -/
theorem getLsbD_flag : (x ++ BitVec.ofBool b).getLsbD 0 = b := by
  simp [BitVec.getElem_append]

/-- Above an appended flag stand the bits of the word. -/
theorem getLsbD_above_flag (i : Nat) : (x ++ BitVec.ofBool b).getLsbD (i + 1) = x.getLsbD i := by
  simp [BitVec.getLsbD_append]

/-- Above an appended flag stand the fields of the word. -/
theorem extractLsb'_above_flag (start len : Nat) :
    (x ++ BitVec.ofBool b).extractLsb' (start + 1) len = x.extractLsb' start len :=
  BitVec.extractLsb'_append_eq_of_le (Nat.le_add_left 1 start)
end

theorem statusImage_txEn (s : State) : (statusImage s).getLsbD 0 = s.txEn := getLsbD_flag _ _

theorem statusImage_rxEn (s : State) : (statusImage s).getLsbD 1 = s.rxEn :=
  (getLsbD_above_flag _ _ 0).trans (getLsbD_flag _ _)

theorem statusImage_busy (s : State) : (statusImage s).getLsbD 2 = s.busy :=
  (getLsbD_above_flag _ _ 1).trans <| (getLsbD_above_flag _ _ 0).trans (getLsbD_flag _ _)

theorem statusImage_mbValid (s : State) : (statusImage s).getLsbD 3 = s.mb.valid :=
  (getLsbD_above_flag _ _ 2).trans <| (getLsbD_above_flag _ _ 1).trans <|
    (getLsbD_above_flag _ _ 0).trans (getLsbD_flag _ _)

/-- Above the four flags of STATUS: four bits 0, ERR, and 0 (R42). -/
theorem statusImage_above_flags (s : State) (start len : Nat) :
    (statusImage s).extractLsb' (start + 4) len = (0#20 ++ s.err.code ++ 0#4).extractLsb' start len :=
  (extractLsb'_above_flag _ _ (start + 3) len).trans <| (extractLsb'_above_flag _ _ (start + 2) len).trans <|
    (extractLsb'_above_flag _ _ (start + 1) len).trans (extractLsb'_above_flag _ _ start len)

theorem statusImage_low_reserved (s : State) : (statusImage s).extractLsb' 4 4 = 0#4 :=
  (statusImage_above_flags s 0 4).trans BitVec.extractLsb'_append_eq_right

theorem statusImage_err (s : State) : (statusImage s).extractLsb' 8 4 = s.err.code :=
  (statusImage_above_flags s 4 4).trans <|
    (BitVec.extractLsb'_append_eq_of_le (Nat.le_refl 4)).trans BitVec.extractLsb'_append_eq_right

theorem statusImage_high_reserved (s : State) : (statusImage s).extractLsb' 12 20 = 0#20 :=
  (statusImage_above_flags s 8 20).trans <|
    (BitVec.extractLsb'_append_eq_of_le (by decide)).trans BitVec.extractLsb'_append_eq_left

/-- Settles O46, field by field of `statusImage`. -/
theorem statusWordLayout : Obligations.StatusWordLayout :=
  ⟨fun s => ⟨statusImage_txEn s, statusImage_rxEn s, statusImage_busy s, statusImage_mbValid s,
    statusImage_low_reserved s, statusImage_err s, statusImage_high_reserved s, rfl, fun v => regWrite_status v s⟩, rfl⟩

theorem codeHi_append_codeLo (c : Code) : codeHi c ++ codeLo c = c :=
  (BitVec.extractLsb'_append_extractLsb'_eq_extractLsb' rfl).trans BitVec.extractLsb'_eq_self

@[simp] theorem codeLo_append (hi lo : Word) : codeLo (hi ++ lo) = lo := BitVec.extractLsb'_append_eq_right

@[simp] theorem codeHi_append (hi lo : Word) : codeHi (hi ++ lo) = hi := BitVec.extractLsb'_append_eq_left

theorem pinStatImage_out (p : Pin) : (pinStatImage p).getLsbD 0 = p.out := getLsbD_flag _ _

theorem pinStatImage_oe (p : Pin) : (pinStatImage p).getLsbD 1 = p.oe :=
  (getLsbD_above_flag _ _ 0).trans (getLsbD_flag _ _)

theorem pinStatImage_inp (p : Pin) : (pinStatImage p).getLsbD 2 = p.inp :=
  (getLsbD_above_flag _ _ 1).trans <| (getLsbD_above_flag _ _ 0).trans (getLsbD_flag _ _)

theorem pinStatImage_reserved (p : Pin) : (pinStatImage p).extractLsb' 3 29 = 0#29 :=
  (extractLsb'_above_flag _ _ 2 29).trans <| (extractLsb'_above_flag _ _ 1 29).trans <|
    (extractLsb'_above_flag _ _ 0 29).trans BitVec.extractLsb'_eq_self

/-- Settles O47: the halves of a code are inverse to their concatenation, and the rest are single images. -/
theorem registerImagesShowState : Obligations.RegisterImagesShowState := fun s v =>
  ⟨⟨codeHi_append_codeLo s.txCode,
      ⟨_, rfl, rfl, codeLo_append (codeHi s.txCode) v, codeHi_append (codeHi s.txCode) v⟩,
      ⟨_, rfl, rfl, codeHi_append v (codeLo s.txCode), codeLo_append v (codeLo s.txCode)⟩, rfl, rfl⟩,
    ⟨codeHi_append_codeLo s.poll.code, rfl, getLsbD_flag _ _,
      (extractLsb'_above_flag _ _ 0 31).trans BitVec.extractLsb'_eq_self⟩,
    ⟨rfl, BitVec.toNat_setWidth_of_le (by decide), rfl, rfl, pinStatImage_out s.pin, pinStatImage_oe s.pin,
      pinStatImage_inp s.pin, pinStatImage_reserved s.pin⟩,
    fun _ hoff _ => regWrite_dropped_of_le hoff v s⟩

end Sys2Proof.Machine
end

section
/-! PROOFS. What each operation leaves unchanged: the bodies of the commands, the tick, the EDGE step, an access. -/

namespace Sys2Proof.Machine

/-- The effect of a command before `x[ERR] <- OK`, or the error it raises (R74). -/
def commandBody : Instr → State → Except ErrCode State
  | .nop, s => .ok s
  | .enableTx, s => enableTxBody s
  | .disableTx, s => disableTxBody s
  | .sendCode, s => startSend (sendCodeWidth s.cfg) (sendCodePattern s.cfg s.txCode) s
  | .sendBits, s => startSend s.cfg.bitLength.toNat (sendBitsPattern s.cfg s.txCode) s
  | .enableRx, s => enableRxBody s
  | .disableRx, s => disableRxBody s
  | .poll, s => pollBody s

theorem exec_eq_commandBody (i : Instr) (s : State) : exec i s = runCommand (commandBody i) s := by
  cases i <;> rfl

/-- What holds of a state, of the states a body accepts, and whatever ERR is, holds after a command. -/
theorem runCommand_elim {P : State → Prop} {body : State → Except ErrCode State} {s u : State}
    (h : runCommand body s = .next u) (hs : P s) (hbody : ∀ t, s.busy = false → body s = .ok t → P t)
    (herr : ∀ c t, P t → P (setErr c t)) : P u := by
  obtain ⟨_, rfl⟩ | ⟨_, c, _, rfl⟩ | ⟨hb, t, ht, rfl⟩ := runCommand_cases h
  · exact herr _ _ hs
  · exact herr _ _ hs
  · exact herr _ _ (hbody t hb ht)

/-- An accepted ENABLE_TX: receive is disabled, and transmit is enabled if it was not (R90). -/
theorem enableTxBody_ok {s t : State} (h : enableTxBody s = .ok t) :
    s.rxEn = false ∧ (t = s ∨ t = { s with txEn := true, pin := { s.pin with oe := true, out := false } }) := by
  unfold enableTxBody at h
  split at h
  · cases h
  · rename_i hrx
    refine ⟨Bool.not_eq_true _ ▸ hrx, ?_⟩
    split at h <;> cases h
    · exact .inl rfl
    · exact .inr rfl

/-- DISABLE_TX releases the pad if transmit was enabled (R91). -/
theorem disableTxBody_ok {s t : State} (h : disableTxBody s = .ok t) :
    t = s ∨ t = { s with txEn := false, pin := { s.pin with oe := false, out := false } } := by
  unfold disableTxBody at h
  split at h <;> cases h
  · exact .inr rfl
  · exact .inl rfl

/-- An accepted send: transmit is enabled, the protocol has a row, and the frames are latched (R94, R95). -/
theorem startSend_ok {w : Nat} {pat : List Bool} {s t : State} (h : startSend w pat s = .ok t) :
    s.txEn = true ∧ s.cfg.txRepeat ≠ 0#16 ∧ ∃ r, lookup s.par.ptab s.cfg.proto = some r ∧
      t = txStart (sendSegments s r pat) s := by
  obtain ⟨_, he⟩ | ⟨_, _, he⟩ | ⟨htx, r, hr, ⟨_, he⟩ | ⟨_, _, _, _, he⟩ | ⟨hrep, _, _, _, he⟩⟩ :=
    startSend_cases w pat s <;> rw [he] at h <;> cases h
  exact ⟨htx, hrep, r, hr, rfl⟩

/-- An accepted ENABLE_RX: transmit is disabled, and receive starts cleared if it was off (R103). -/
theorem enableRxBody_ok {s t : State} (h : enableRxBody s = .ok t) :
    s.txEn = false ∧ (t = s ∨ (lookup s.par.ptab s.cfg.proto).isSome = true ∧ s.cfg.tol.toNat ≤ 100 ∧
      t = clearRx { s with rxEn := true }) := by
  unfold enableRxBody at h
  split at h
  · cases h
  · rename_i htx
    refine ⟨Bool.not_eq_true _ ▸ htx, ?_⟩
    split at h
    · cases h; exact .inl rfl
    · split at h
      · cases h
      · rename_i hr
        split at h <;> cases h
        rename_i htol
        exact .inr ⟨by rw [hr]; rfl, Nat.le_of_not_lt htol, rfl⟩

/-- DISABLE_RX clears the receive side if receive was enabled (R104). -/
theorem disableRxBody_ok {s t : State} (h : disableRxBody s = .ok t) :
    t = s ∨ t = clearRx { s with rxEn := false } := by
  unfold disableRxBody at h
  split at h <;> cases h
  · exact .inr rfl
  · exact .inl rfl

/-- What no command touches, and what only the named commands do (R76-R126). -/
structure CommandFrame (i : Instr) (s t : State) : Prop where
  par : t.par = s.par
  cfg : t.cfg = s.cfg
  txCode : t.txCode = s.txCode
  now : t.now = s.now
  padLevel : t.pin.inp = s.pin.inp
  busResp : t.busResp = s.busResp
  inputs : t.inputs = s.inputs
  txEn : t.txEn = s.txEn ∨ i = .enableTx ∨ i = .disableTx
  rxEn : t.rxEn = s.rxEn ∨ i = .enableRx ∨ i = .disableRx
  poll : t.poll = s.poll ∨ i = .poll

theorem CommandFrame.refl (i : Instr) (s : State) : CommandFrame i s s := by
  constructor <;> simp

theorem CommandFrame.setErr {i : Instr} {s t : State} (h : CommandFrame i s t) (c : ErrCode) :
    CommandFrame i s (setErr c t) := { h with }

theorem txStart_commandFrame (i : Instr) (segs : List Segment) (s : State) : CommandFrame i s (txStart segs s) := by
  rw [txStart_frame]
  constructor <;> simp

theorem commandBody_frame {i : Instr} {s t : State} (h : commandBody i s = .ok t) : CommandFrame i s t := by
  cases i with
  | nop => cases h; exact .refl _ s
  | enableTx =>
    obtain ⟨-, rfl | rfl⟩ := enableTxBody_ok h
    · exact .refl _ t
    · constructor <;> simp
  | disableTx =>
    obtain rfl | rfl := disableTxBody_ok h
    · exact .refl _ t
    · constructor <;> simp
  | sendCode | sendBits =>
    obtain ⟨-, -, r, -, rfl⟩ := startSend_ok h
    exact txStart_commandFrame _ _ s
  | enableRx =>
    obtain ⟨-, rfl | ⟨-, -, rfl⟩⟩ := enableRxBody_ok h
    · exact .refl _ t
    · constructor <;> simp
  | disableRx =>
    obtain rfl | rfl := disableRxBody_ok h
    · exact .refl _ t
    · constructor <;> simp
  | poll =>
    cases h
    constructor <;> simp

theorem exec_frame {i : Instr} {s t : State} (h : exec i s = .next t) : CommandFrame i s t := by
  rw [exec_eq_commandBody] at h
  exact runCommand_elim h (.refl i s) (fun _ _ hb => commandBody_frame hb) fun c _ hf => hf.setErr c

/-- A segment boundary touches only BUSY, the engine and the driven level (R99). -/
theorem segmentBoundary_frame (s : State) :
    segmentBoundary s =
      { s with
        busy := (segmentBoundary s).busy
        eng := (segmentBoundary s).eng
        pin := { s.pin with out := (segmentBoundary s).pin.out } } := by
  obtain ⟨-, -, ⟨g, gs, -, h⟩ | ⟨-, h⟩⟩ | ⟨-, h⟩ := segmentBoundary_cases s <;> rw [h] <;> rfl

/-- A tick touches only NOW, BUSY, the engine and the driven level (R99). -/
theorem tick_frame {s t : State} (h : tick s = .next t) :
    t = { s with now := s.now + 1#32, busy := t.busy, eng := t.eng, pin := { s.pin with out := t.pin.out } } := by
  obtain ⟨-, he⟩ | ⟨-, -, he⟩ | ⟨-, -, -, he⟩ | ⟨-, -, -, he⟩ := engineTick_cases (advanceNow s) <;>
    rw [tick, he] at h <;> cases h
  · rfl
  · exact segmentBoundary_frame _
  · exact segmentBoundary_frame _

/-- An EDGE step touches only the capture state and the mailbox (R106). -/
theorem edge_frame {ts : Word} {s t : State} (h : edge ts s = .next t) : t = { s with cap := t.cap, mb := t.mb } := by
  obtain ⟨-, rfl⟩ | ⟨-, u, rfl, ⟨-, rfl⟩ | ⟨-, hu⟩⟩ | ⟨-, -, rfl⟩ := edge_cases h
  · rfl
  · rfl
  · obtain rfl | ⟨c, -, -, rfl⟩ := decodeFrame_cases hu <;> rfl
  · unfold dataEdge
    split <;> rfl

/-- A pad change touches only the pad's level, the capture state and the mailbox (R105). -/
theorem padChange_frame {level : Bool} {s t : State} (h : padChange level s = .next t) :
    t = { s with pin := { s.pin with inp := level }, cap := t.cap, mb := t.mb } := by
  unfold padChange at h
  simp only at h
  split at h
  · exact edge_frame h
  · cases h; rfl

/-- An admitted write in the words of `access` (R51). -/
theorem admittedWrite_eq_some {p : Params} {a : Access} {off : Nat} {v : Word} (hk : a.kind = .write v)
    (ht : targetOffset p a.target = some off) (ha : admitted a.nbytes off = true) :
    admittedWrite p (.access a) = some (off, v) := by
  simp only [admittedWrite, hk, ht, ha, if_true]

/-- An admitted write of a legal word to CMD issues its command (R66). -/
theorem issued_eq_some {p : Params} {e : Event} {v : Word} {i : Instr} (hw : admittedWrite p e = some (0x020, v))
    (hd : decode v = .ok i) : issued p e = some i := by
  simp only [issued, hw, hd, if_true, Except.toOption]

/-- All that a host access can do: run the command it issues, write a configuration register with both roles disabled, or
change no more than ERR, TX_CODE and the bus's answer (R51-R53, R69, R17). -/
theorem access_eq_next_cases {a : Access} {s t : State} (h : access a s = .next t) :
    (∃ i, issued s.par (.access a) = some i ∧ exec i (respond .written s) = .next t) ∨
      (s.txEn = false ∧ s.rxEn = false ∧ ∃ off v r, admittedWrite s.par (.access a) = some (off, v) ∧
        regAt off = some r ∧ t = { s with cfg := writeCfg r v s.cfg, busResp := some .written }) ∨
      t = { s with err := t.err, txCode := t.txCode, busResp := t.busResp } := by
  obtain ⟨off, v, hk, ht, ha, he⟩ | ⟨r, he⟩ := access_cases a s <;> rw [he] at h
  · have hw := admittedWrite_eq_some hk ht ha
    obtain ⟨hc, hr⟩ | ⟨c, hr⟩ | ⟨r, hreg, hr⟩ | ⟨-, hr⟩ := regWrite_cases off v (respond .written s) <;> rw [hr] at h
    · obtain ⟨-, rfl⟩ := regAt_eq_some hc
      obtain ⟨-, hx⟩ | ⟨i, hd, hx⟩ := command_cases v (respond .written s) <;> rw [hx] at h
      · cases h; exact .inr (.inr rfl)
      · exact .inl ⟨i, issued_eq_some hw hd, h⟩
    · cases h; exact .inr (.inr rfl)
    · cases h
      obtain hl | ⟨htx, hrx, hl⟩ := lockedWrite_cases r v (respond .written s) <;> rw [hl]
      · exact .inr (.inr rfl)
      · exact .inr (.inl ⟨htx, hrx, off, v, r, hw, hreg, rfl⟩)
    · cases h; exact .inr (.inr rfl)
  · cases h; exact .inr (.inr rfl)

/-- A step handles the event that `nextEvent` names (log 1). -/
theorem step_eq_handle (s : State) : step s = handle s.nextEvent (s.take s.inputs.tail) := by
  unfold step State.nextEvent
  cases s.inputs <;> rfl

end Sys2Proof.Machine
end

section
/-! PROOFS. Who writes the configuration, the roles, NOW and the parameters (R17-R19, R31, R81). -/

namespace Sys2Proof.Machine

/-- No access changes the parameters or NOW (R31, R81). -/
theorem access_par_now {a : Access} {s t : State} (h : access a s = .next t) : t.par = s.par ∧ t.now = s.now := by
  obtain ⟨i, -, hx⟩ | ⟨-, -, off, v, r, -, -, rfl⟩ | ht := access_eq_next_cases h
  · exact ⟨(exec_frame hx).par, (exec_frame hx).now⟩
  · exact ⟨rfl, rfl⟩
  · rw [ht]; exact ⟨rfl, rfl⟩

theorem handle_par {e : Event} {s t : State} (h : handle e s = .next t) : t.par = s.par := by
  cases e with
  | access a => exact (access_par_now h).1
  | pad level => rw [padChange_frame h]
  | tick => rw [tick_frame h]
  | reset => cases h; rfl

theorem handle_now {e : Event} {s t : State} (h : handle e s = .next t) :
    (e = .tick → t.now = s.now + 1#32) ∧ (e = .reset → t.now = 0#32) ∧
      (e ≠ .tick → e ≠ .reset → t.now = s.now) := by
  cases e with
  | access a => simp [(access_par_now h).2]
  | pad level => rw [padChange_frame h]; simp
  | tick => rw [tick_frame h]; simp
  | reset => cases h; simp [State.reset]

/-- Settles O57 from what one event does to the parameters and to NOW. -/
theorem nowCountsTicksAndTableIsConstant : Obligations.NowCountsTicksAndTableIsConstant := by
  intro s t h
  rw [step_eq_handle] at h
  have hpar := handle_par h
  obtain ⟨htick, hreset, hother⟩ := handle_now h
  refine ⟨hpar, fun he => ?_, hreset, hother⟩
  rw [htick he]
  simp [BitVec.toNat_add]

/-- Every way an event can change the configuration (R17). -/
theorem handle_cfg {e : Event} {s t : State} (h : handle e s = .next t) :
    t.cfg = s.cfg ∨ e = .reset ∨ (s.txEn = false ∧ s.rxEn = false ∧
      ∃ off v r, admittedWrite s.par e = some (off, v) ∧ regAt off = some r ∧ t.cfg = writeCfg r v s.cfg) := by
  cases e with
  | access a =>
    obtain ⟨i, -, hx⟩ | ⟨htx, hrx, off, v, r, hw, hr, rfl⟩ | ht := access_eq_next_cases h
    · exact .inl (exec_frame hx).cfg
    · exact .inr (.inr ⟨htx, hrx, off, v, r, hw, hr, rfl⟩)
    · exact .inl (by rw [ht])
  | pad level => exact .inl (by rw [padChange_frame h])
  | tick => exact .inl (by rw [tick_frame h])
  | reset => exact .inr (.inl rfl)

/-- Each field of the configuration is written at its own register only (R77). -/
theorem writeCfg_own_register (r : Reg) (v : Word) (c : Cfg) :
    ((writeCfg r v c).proto ≠ c.proto → r = .cfgProto) ∧
      ((writeCfg r v c).pulseOverride ≠ c.pulseOverride → r = .cfgPulse) ∧
      ((writeCfg r v c).txRepeat ≠ c.txRepeat → r = .cfgRepeat) ∧
      ((writeCfg r v c).bitLength ≠ c.bitLength → r = .cfgBitlen) ∧
      ((writeCfg r v c).tol ≠ c.tol → r = .cfgTol) ∧
      ((writeCfg r v c).gpioId ≠ c.gpioId → r = .cfgGpio) ∧
      ((writeCfg r v c).minTrans ≠ c.minTrans ∨ (writeCfg r v c).rejectZero ≠ c.rejectZero → r = .cfgFilter) := by
  cases r <;> simp [writeCfg]

/-- A write that changes the configuration is one of a configuration register (R33, R77). -/
theorem offset_le_of_writeCfg_ne {r : Reg} {v : Word} {c : Cfg} (h : writeCfg r v c ≠ c) : r.offset ≤ 0x018 := by
  cases r with
  | cfgProto | cfgPulse | cfgRepeat | cfgBitlen | cfgTol | cfgGpio | cfgFilter => simp [Reg.offset]
  | _ => exact absurd rfl h

/-- With a role enabled the lock drops a write (R17). -/
theorem lockedWrite_locked {s : State} (h : s.txEn = true ∨ s.rxEn = true) (r : Reg) (v : Word) :
    lockedWrite r v s = s := by
  obtain h | h := h <;> simp [lockedWrite, unlocked, h]

/-- Below CMD a write is one under the lock, or dropped (R53, R77). -/
theorem regWrite_below_cmd {off : Nat} (h : off < 0x020) (v : Word) (s : State) :
    (∃ r, regWrite off v s = .next (lockedWrite r v s)) ∨ regWrite off v s = .next s := by
  have elsewhere {r : Reg} (hr : 0x020 ≤ r.offset) : regAt off ≠ some r := fun hreg => by
    obtain ⟨-, rfl⟩ := regAt_eq_some hreg
    omega
  unfold regWrite
  split
  · exact absurd ‹_› (elsewhere (by decide))
  · exact absurd ‹_› (elsewhere (by decide))
  · exact absurd ‹_› (elsewhere (by decide))
  · exact .inl ⟨_, rfl⟩
  · exact .inr rfl

/-- With a role enabled a write below CMD is dropped (R17, R53). -/
theorem regWrite_locked {off : Nat} (h : off < 0x020) {s : State} (hrole : s.txEn = true ∨ s.rxEn = true) (v : Word) :
    regWrite off v s = .next s := by
  obtain ⟨r, hw⟩ | hw := regWrite_below_cmd h v s <;> rw [hw]
  rw [lockedWrite_locked hrole]

/-- Settles O54: `handle_cfg` names the write, and `writeCfg_own_register` the field that it changes. -/
theorem configurationLock : Obligations.ConfigurationLock := by
  refine ⟨fun s t h hne => ?_, fun s t h hreset => ?_, fun s off v hrole hoff hal => ?_⟩
  · rw [step_eq_handle] at h
    obtain he | he | ⟨htx, hrx, off, v, r, hw, hr, hcfg⟩ := handle_cfg h
    · exact absurd he hne
    · exact .inl he
    · obtain ⟨-, rfl⟩ := regAt_eq_some hr
      have hchange : writeCfg r v s.cfg ≠ s.cfg := fun hsame => hne (hcfg.trans hsame)
      exact .inr ⟨htx, hrx, r.offset, v, r, hw, offset_le_of_writeCfg_ne hchange, hr, hcfg⟩
  · rw [step_eq_handle] at h
    obtain he | he | ⟨-, -, off, v, r, hw, hr, hcfg⟩ := handle_cfg h
    · simp [he]
    · exact absurd he hreset
    · obtain ⟨-, rfl⟩ := regAt_eq_some hr
      have at_register (r' : Reg) (hr' : r = r') : ∃ v, admittedWrite s.par s.nextEvent = some (r'.offset, v) :=
        ⟨v, hr' ▸ hw⟩
      obtain ⟨hproto, hpulse, hrepeat, hbits, htol, hgpio, hfilter⟩ := writeCfg_own_register r v s.cfg
      rw [hcfg]
      exact ⟨fun hc => at_register _ (hproto hc), fun hc => at_register _ (hpulse hc),
        fun hc => at_register _ (hrepeat hc), fun hc => at_register _ (hbits hc), fun hc => at_register _ (htol hc),
        fun hc => at_register _ (hgpio hc), fun hc => at_register _ (hfilter hc)⟩
  · have hin : off < Config.windowSize := Nat.lt_of_le_of_lt hoff (by decide)
    simp only [access, targetOffset, admitted, hal, hin, BEq.rfl, decide_true, Bool.and_self, if_true]
    exact regWrite_locked (s := respond .written s) (by omega) hrole v

/-- TX_EN and RX_EN change only by the commands that an access issues (R18, R19). -/
theorem access_roles {a : Access} {s t : State} (h : access a s = .next t) :
    (t.txEn = s.txEn ∨ issued s.par (.access a) = some .enableTx ∨ issued s.par (.access a) = some .disableTx) ∧
      (t.rxEn = s.rxEn ∨ issued s.par (.access a) = some .enableRx ∨ issued s.par (.access a) = some .disableRx) := by
  obtain ⟨i, hi, hx⟩ | ⟨-, -, off, v, r, -, -, rfl⟩ | ht := access_eq_next_cases h
  · have hf := exec_frame hx
    rw [hi]
    simp only [Option.some.injEq]
    exact ⟨hf.txEn, hf.rxEn⟩
  · exact ⟨.inl rfl, .inl rfl⟩
  · rw [ht]; exact ⟨.inl rfl, .inl rfl⟩

/-- Every way an event can change the roles (R18, R19). -/
theorem handle_roles {e : Event} {s t : State} (h : handle e s = .next t) :
    e = .reset ∨
      ((t.txEn = s.txEn ∨ issued s.par e = some .enableTx ∨ issued s.par e = some .disableTx) ∧
        (t.rxEn = s.rxEn ∨ issued s.par e = some .enableRx ∨ issued s.par e = some .disableRx)) := by
  cases e with
  | access a => exact .inr (access_roles h)
  | pad level => rw [padChange_frame h]; exact .inr ⟨.inl rfl, .inl rfl⟩
  | tick => rw [tick_frame h]; exact .inr ⟨.inl rfl, .inl rfl⟩
  | reset => exact .inl rfl

/-- With receive enabled a transition of the pad is an EDGE step stamped NOW (R105). -/
theorem padChange_transition {level : Bool} {s : State} (hrx : s.rxEn = true) (hl : level ≠ s.pin.inp) :
    padChange level s = edge s.now { s with pin := { s.pin with inp := level } } := by
  simp only [padChange, hrx, hl, ne_eq, not_false_eq_true, and_self, if_true]

/-- Settles O55: the frame of each command says which of them writes a role. -/
theorem rolesWrittenByTheirCommands : Obligations.RolesWrittenByTheirCommands := by
  refine ⟨fun s t h => ?_, fun s => ⟨statusImage_txEn s, statusImage_rxEn s⟩, rfl, rfl,
    fun s level => padChange_transition⟩
  rw [step_eq_handle] at h
  obtain he | ⟨htx, hrx⟩ := handle_roles h
  · exact ⟨fun _ => .inl he, fun _ => .inl he⟩
  · exact ⟨fun hne => .inr (htx.resolve_left hne), fun hne => .inr (hrx.resolve_left hne)⟩

end Sys2Proof.Machine
end

section
/-! PROOFS. The reset state meets the invariant, for every value of the open parameters (R48, R82). -/

namespace Sys2Proof

/-- What makes a row admissible, field by field (R82). -/
theorem ProtoRow.wf_iff (r : ProtoRow) :
    r.wf = true ↔ r.pulseUnitUs ≠ 0#16 ∧ r.syncHigh ≠ 0#8 ∧ r.syncLow ≠ 0#8 ∧ r.zeroHigh ≠ 0#8 ∧ r.zeroLow ≠ 0#8 ∧
      r.oneHigh ≠ 0#8 ∧ r.oneLow ≠ 0#8 := by
  simp [ProtoRow.wf, and_assoc]

namespace Config

theorem atLeastOne_ne_zero {w : Nat} (hw : 0 < w) (v : BitVec w) : atLeastOne v ≠ 0#w := by
  unfold atLeastOne
  split
  · simpa using hw.ne'
  · assumption

theorem openRow_wf (p : Nat) : (openRow p).wf = true := by
  simp [ProtoRow.wf_iff, openRow, atLeastOne_ne_zero]

theorem row1_wf : row1.wf = true := by
  simp [ProtoRow.wf_iff, row1, openRow, atLeastOne_ne_zero]

/-- The free parameters meet R82, R83 and R58 whatever they are. -/
theorem params_wf : params.wf = true := by
  have hsource : row1.isSourceRow1 = true := rfl
  simp [Params.wf, ProtoTable.wf, params, ptab, openRow_wf, row1_wf, hsource]

end Config

/-- A row that is looked up in an admissible table is admissible (R82, R84). -/
theorem ProtoTable.wf_of_lookup {t : ProtoTable} (ht : t.wf = true) {p : BitVec 3} {r : ProtoRow}
    (h : Machine.lookup t p = some r) : r.wf = true := by
  simp only [ProtoTable.wf, Bool.and_eq_true] at ht
  obtain ⟨⟨⟨⟨⟨⟨h1, h2⟩, h3⟩, h4⟩, h5⟩, h6⟩, -⟩ := ht
  unfold Machine.lookup at h
  split at h <;> cases h <;> assumption

namespace Machine

theorem Capture.cleared_wf : Capture.cleared.wf := by
  simp [Capture.wf, Capture.cleared]

theorem CodeSlot.empty_wf : CodeSlot.empty.wf := by
  simp [CodeSlot.wf, CodeSlot.empty]

/-- A block at its reset values meets the invariant, whatever its parameters, pad level and list of events (R48). -/
theorem resetStep_inv {s : State} (h : s.par.wf = true) : (resetStep s).Inv where
  params := h
  oneRole := rfl
  busyTx := nofun
  capture := Capture.cleared_wf
  mailbox := CodeSlot.empty_wf
  polled := CodeSlot.empty_wf
  rxConfig := nofun
  rxOff := fun _ => ⟨rfl, rfl⟩
  sending := nofun
  notSending := fun _ => ⟨rfl, rfl⟩
  driven := rfl

/-- Settles O58: the reset state is one that the reset event leaves. -/
theorem resetMeetsInvariant : Obligations.ResetMeetsInvariant :=
  resetStep_inv (s := State.reset) Config.params_wf

end Machine
end Sys2Proof
end

section
/-! PROOFS. Every event keeps the invariant of R15. -/

namespace Sys2Proof.Machine

/-- ERR, TX_CODE, NOW, the bus's answer and the list of events are not in the invariant. -/
theorem State.Inv.of_unconstrained {s : State} (h : s.Inv) (e : ErrCode) (c : Code) (n : Word) (b : Option BusResp)
    (es : List Event) : State.Inv { s with err := e, txCode := c, now := n, busResp := b, inputs := es } := { h with }

theorem State.Inv.setErr {s : State} (h : s.Inv) (c : ErrCode) : (setErr c s).Inv := h.of_unconstrained _ _ _ _ _

theorem State.Inv.respond {s : State} (h : s.Inv) (r : BusResp) : (respond r s).Inv := h.of_unconstrained _ _ _ _ _

theorem State.Inv.take {s : State} (h : s.Inv) (es : List Event) : (s.take es).Inv := h.of_unconstrained _ _ _ _ _

theorem State.Inv.advanceNow {s : State} (h : s.Inv) : (advanceNow s).Inv := h.of_unconstrained _ _ _ _ _

/-- Any configuration is allowed while receive is disabled (R16, R103). -/
theorem State.Inv.setCfg {s : State} (h : s.Inv) (hrx : s.rxEn = false) (c : Cfg) : State.Inv { s with cfg := c } :=
  { h with rxConfig := fun hon => absurd hon (by simp [hrx]) }

/-- The pad's level is not in the invariant (R24). -/
theorem State.Inv.setPadLevel {s : State} (h : s.Inv) (level : Bool) :
    State.Inv { s with pin := { s.pin with inp := level } } := { h with }

/-- While receive is enabled the capture state and the mailbox may be any well-formed ones. -/
theorem State.Inv.setReceived {s : State} (h : s.Inv) (hrx : s.rxEn = true) {c : Capture} (hc : c.wf) {m : CodeSlot}
    (hm : m.wf) : State.Inv { s with cap := c, mb := m } :=
  { h with capture := hc, mailbox := hm, rxOff := fun hoff => absurd hoff (by simp [hrx]) }

/-! ### A send -/

/-- No segment of a waveform is empty: multiplier and unit are at least 1 and the product fits 32 bits (R85, R98). -/
theorem waveSegment_dur_ne_zero {level : Bool} {mult : BitVec 8} {unit : Nat} (hm : mult ≠ 0#8) (hu : 0 < unit)
    (hu' : unit < 2 ^ 16) : (waveSegment level mult unit).dur ≠ 0#32 := by
  have hm0 : 0 < mult.toNat := Nat.pos_of_ne_zero fun h0 => hm (BitVec.eq_of_toNat_eq h0)
  have hpos : 0 < mult.toNat * unit := Nat.mul_pos hm0 hu
  have hlt : mult.toNat * unit < 2 ^ 8 * 2 ^ 16 := Nat.mul_lt_mul'' mult.isLt hu'
  intro h0
  have hnat := congrArg BitVec.toNat h0
  simp only [waveSegment, Config.txScale, BitVec.toNat_ofNat, Nat.zero_mod] at hnat
  omega

theorem txUnit_pos {r : ProtoRow} (hr : r.wf = true) (c : Cfg) : 0 < txUnit c r := by
  obtain ⟨hu, -⟩ := r.wf_iff.1 hr
  unfold txUnit
  split
  · exact Nat.pos_of_ne_zero fun h0 => ‹c.pulseOverride ≠ 0#16› (BitVec.eq_of_toNat_eq h0)
  · exact Nat.pos_of_ne_zero fun h0 => hu (BitVec.eq_of_toNat_eq h0)

theorem txUnit_lt (c : Cfg) (r : ProtoRow) : txUnit c r < 2 ^ 16 := by
  unfold txUnit
  split
  · exact c.pulseOverride.isLt
  · exact r.pulseUnitUs.isLt

section
variable {r : ProtoRow} {unit : Nat} (hr : r.wf = true) (hu : 0 < unit) (hu' : unit < 2 ^ 16)
include hr hu hu'

theorem syncWave_dur_ne_zero : ∀ g ∈ syncWave r unit, g.dur ≠ 0#32 := by
  obtain ⟨-, hh, hl, -⟩ := r.wf_iff.1 hr
  simp [syncWave, wave, waveSegment_dur_ne_zero hh hu hu', waveSegment_dur_ne_zero hl hu hu']

theorem bitWave_dur_ne_zero (b : Bool) : ∀ g ∈ bitWave r unit b, g.dur ≠ 0#32 := by
  obtain ⟨-, -, -, hzh, hzl, hoh, hol⟩ := r.wf_iff.1 hr
  cases b
  · simp [bitWave, wave, waveSegment_dur_ne_zero hzh hu hu', waveSegment_dur_ne_zero hzl hu hu']
  · simp [bitWave, wave, waveSegment_dur_ne_zero hoh hu hu', waveSegment_dur_ne_zero hol hu hu']

theorem frame_dur_ne_zero (p6 : Bool) (pat : List Bool) : ∀ g ∈ frame p6 r unit pat, g.dur ≠ 0#32 := by
  have hsync := syncWave_dur_ne_zero hr hu hu'
  intro g hg
  simp only [frame, List.mem_append, List.mem_flatMap] at hg
  obtain (hg | ⟨b, -, hg⟩) | hg := hg
  · cases p6 with
    | false => cases hg
    | true => exact hsync g hg
  · exact bitWave_dur_ne_zero hr hu hu' b g hg
  · exact hsync g hg

theorem frames_dur_ne_zero (p6 : Bool) (pat : List Bool) (n : Nat) : ∀ g ∈ frames p6 r unit pat n, g.dur ≠ 0#32 := by
  induction n with
  | zero => nofun
  | succ n ih =>
    intro g hg
    obtain hg | hg := List.mem_append.1 hg
    · exact frame_dur_ne_zero hr hu hu' p6 pat g hg
    · exact ih g hg
end

/-- At least one repeat has a segment (R97). -/
theorem frames_ne_nil (p6 : Bool) (r : ProtoRow) (unit : Nat) (pat : List Bool) {n : Nat} (hn : n ≠ 0) :
    frames p6 r unit pat n ≠ [] := by
  cases n with
  | zero => exact absurd rfl hn
  | succ n => simp [frames, frame, syncWave, wave]

/-- A send starts the engine on a list of segments with no empty one (R96, R98). -/
theorem txStart_running {segs : List Segment} (hne : segs ≠ []) (hpos : ∀ g ∈ segs, g.dur ≠ 0#32) (s : State) :
    (txStart segs s).eng.running := by
  unfold txStart
  by_cases hlat : s.par.txLat = 0#32
  · cases segs with
    | nil => exact absurd rfl hne
    | cons g gs =>
      obtain ⟨hg, hgs⟩ := List.forall_mem_cons.1 hpos
      simpa [hlat, Engine.running, hg] using hgs
  · simpa [hlat, Engine.running, hne] using hpos

theorem txStart_inv {segs : List Segment} (hne : segs ≠ []) (hpos : ∀ g ∈ segs, g.dur ≠ 0#32) {s : State} (h : s.Inv)
    (htx : s.txEn = true) : (txStart segs s).Inv := by
  have hrun := txStart_running hne hpos s
  rw [txStart_frame]
  exact { h with busyTx := fun _ => htx, sending := fun _ => hrun, notSending := nofun }

theorem sendSegments_dur_ne_zero {r : ProtoRow} (hr : r.wf = true) (s : State) (pat : List Bool) :
    ∀ g ∈ sendSegments s r pat, g.dur ≠ 0#32 :=
  frames_dur_ne_zero hr (txUnit_pos hr s.cfg) (txUnit_lt s.cfg r) _ pat _

theorem sendSegments_ne_nil {s : State} (h : s.cfg.txRepeat ≠ 0#16) (r : ProtoRow) (pat : List Bool) :
    sendSegments s r pat ≠ [] :=
  frames_ne_nil _ r _ pat fun h0 => h (BitVec.eq_of_toNat_eq h0)

theorem startSend_inv {w : Nat} {pat : List Bool} {s t : State} (h : s.Inv) (hs : startSend w pat s = .ok t) :
    t.Inv := by
  obtain ⟨htx, hrep, r, hr, rfl⟩ := startSend_ok hs
  have ptab_wf : s.par.ptab.wf = true := (Bool.and_eq_true_iff.1 h.params).1
  have row_wf := ProtoTable.wf_of_lookup ptab_wf hr
  exact txStart_inv (sendSegments_ne_nil hrep r pat) (sendSegments_dur_ne_zero row_wf s pat) h htx

/-! ### The other commands -/

/-- Every accepted command keeps the invariant; it runs only while no send is in progress (R74). -/
theorem commandBody_inv {i : Instr} {s t : State} (h : s.Inv) (hb : s.busy = false) (hs : commandBody i s = .ok t) :
    t.Inv := by
  have idle := h.notSending hb
  have not_busy {p : Prop} : s.busy = true → p := by simp [hb]
  cases i with
  | nop => cases hs; exact h
  | enableTx =>
    obtain ⟨hrx, rfl | rfl⟩ := enableTxBody_ok hs
    · exact h
    · exact { h with
        oneRole := by simp [hrx]
        busyTx := not_busy
        notSending := fun _ => ⟨idle.1, rfl⟩
        driven := rfl }
  | disableTx =>
    obtain rfl | rfl := disableTxBody_ok hs
    · exact h
    · exact { h with
        oneRole := rfl
        busyTx := not_busy
        notSending := fun _ => ⟨idle.1, rfl⟩
        driven := rfl }
  | sendCode | sendBits => exact startSend_inv h hs
  | enableRx =>
    obtain ⟨htx, rfl | ⟨hrow, htol, rfl⟩⟩ := enableRxBody_ok hs
    · exact h
    · exact { h with
        oneRole := by simp [htx]
        capture := Capture.cleared_wf
        mailbox := CodeSlot.empty_wf
        rxConfig := fun _ => ⟨hrow, htol⟩
        rxOff := nofun }
  | disableRx =>
    obtain rfl | rfl := disableRxBody_ok hs
    · exact h
    · exact { h with
        oneRole := by simp
        capture := Capture.cleared_wf
        mailbox := CodeSlot.empty_wf
        rxConfig := nofun
        rxOff := fun _ => ⟨rfl, rfl⟩ }
  | poll =>
    cases hs
    exact { h with
      mailbox := CodeSlot.empty_wf
      polled := h.mailbox
      rxOff := fun hrx => ⟨(h.rxOff hrx).1, rfl⟩ }

theorem exec_inv {i : Instr} {s t : State} (h : s.Inv) (hx : exec i s = .next t) : t.Inv := by
  rw [exec_eq_commandBody] at hx
  exact runCommand_elim hx h (fun _ hb hs => commandBody_inv h hb hs) fun c _ hi => hi.setErr c

theorem access_inv {a : Access} {s t : State} (h : s.Inv) (ha : access a s = .next t) : t.Inv := by
  obtain ⟨i, -, hx⟩ | ⟨-, hrx, off, v, r, -, -, rfl⟩ | ht := access_eq_next_cases ha
  · exact exec_inv (h.respond _) hx
  · exact (h.respond _).setCfg hrx _
  · rw [ht]; exact h.of_unconstrained _ _ _ _ _

/-! ### A tick -/

theorem Engine.eq_idle {e : Engine} (hq : e.txq = []) (hl : e.segLeft = 0#32) (hw : e.txWait = 0#32) :
    e = Engine.idle := by
  rw [show e = ⟨e.txq, e.segLeft, e.txWait⟩ from rfl, hq, hl, hw]
  rfl

/-- A send goes on, or ends, from an engine that has been counted down: while it waits, it waits for a queue (R99). -/
theorem segmentBoundary_inv {s : State} {e : Engine} (h : s.Inv) (hb : s.busy = true)
    (hwait : e.txWait ≠ 0#32 → e.segLeft = 0#32 ∧ e.txq ≠ []) (hpos : ∀ g ∈ e.txq, g.dur ≠ 0#32) :
    (segmentBoundary (setEng e s)).Inv := by
  obtain ⟨hw, hl, ⟨g, gs, hq, he⟩ | ⟨hq, he⟩⟩ | ⟨hstay, he⟩ := segmentBoundary_cases (setEng e s) <;> rw [he]
  · rw [setEng_eng] at hw hq
    rw [hq] at hpos
    obtain ⟨hg, hgs⟩ := List.forall_mem_cons.1 hpos
    exact { h with
      sending := fun _ => by simpa [Engine.running, hw, hg] using hgs
      notSending := by simp [hb] }
  · exact { h with busyTx := nofun, sending := nofun, notSending := fun _ => ⟨Engine.eq_idle hq hl hw, rfl⟩ }
  · have hrun : e.running := by
      refine ⟨?_, hpos⟩
      split
      · exact fun hl => hstay ⟨‹_›, hl⟩
      · exact hwait ‹_›
    exact { h with sending := fun _ => hrun, notSending := by simp [hb] }

/-- The engine's part of a tick never counts SEG_LEFT down from 0, and keeps the invariant (R98, R99). -/
theorem engineTick_inv {s : State} (h : s.Inv) : ∃ t, engineTick s = .next t ∧ t.Inv := by
  obtain ⟨-, he⟩ | ⟨hb, hw, he⟩ | ⟨hb, hw, hl, -⟩ | ⟨hb, hw, hl, he⟩ := engineTick_cases s
  · exact ⟨s, he, h⟩
  · obtain ⟨hphase, hpos⟩ := h.sending hb
    rw [if_neg hw] at hphase
    exact ⟨_, he, segmentBoundary_inv h hb (fun _ => hphase) hpos⟩
  · obtain ⟨hphase, -⟩ := h.sending hb
    rw [if_pos hw] at hphase
    exact absurd hl hphase
  · obtain ⟨-, hpos⟩ := h.sending hb
    exact ⟨_, he, segmentBoundary_inv h hb (fun hne => absurd hw hne) hpos⟩

theorem tick_inv {s : State} (h : s.Inv) : ∃ t, tick s = .next t ∧ t.Inv := engineTick_inv h.advanceNow

/-! ### An EDGE step -/

/-- A frame's opening sync is stored in slot 0, which leaves slot 67 alone (R109). -/
theorem openFrame_cap_wf {d ts : Word} {s : State} (h : s.cap.wf) (hd : Config.tickThreshold < d.toNat) :
    (openFrame d ts s).cap.wf := by
  obtain ⟨-, hlast, -⟩ := h
  refine ⟨by simp [Config.maxChanges], by simpa using hlast, fun i hi => ?_⟩
  have hi0 : i.val = 0 := by simpa using hi
  simpa [hi0] using hd

/-- A data half-pulse is stored below slot 67, or the count restarts (R110, R57). -/
theorem dataEdge_cap_wf {d ts : Word} {s : State} (h : s.cap.wf) (hd : Config.tickThreshold < d.toNat) :
    (dataEdge d ts s).cap.wf := by
  obtain ⟨-, hlast, hstored⟩ := h
  unfold dataEdge
  split
  · exact ⟨by simp, hlast, fun i hi => absurd hi (by simp)⟩
  · rename_i hcount
    have hcount : s.cap.changeCount.toNat < 67 := Nat.lt_of_not_le hcount
    have hnext : (s.cap.changeCount + 1#7).toNat = s.cap.changeCount.toNat + 1 := by
      simp only [BitVec.toNat_add, BitVec.toNat_ofNat]
      omega
    refine ⟨by simp only [hnext, Config.maxChanges]; omega, ?_, fun i hi => ?_⟩
    · simpa [Vector.getElem_setIfInBounds, hcount.ne] using hlast
    · simp only [hnext] at hi
      simp only [Vector.getElem_setIfInBounds]
      split
      · exact hd
      · exact hstored i (by omega)

/-- DECODE publishes a code of at most 33 bits (R122). -/
theorem decodeFrame_wf {n : Nat} {ts : Word} {s t : State} (hn : n ≤ 66) (hcap : s.cap.wf) (hmb : s.mb.wf)
    (h : decodeFrame n ts s = .next t) : t.cap.wf ∧ t.mb.wf := by
  obtain rfl | ⟨c, hc, -, rfl⟩ := decodeFrame_cases h
  · exact ⟨hcap, hmb⟩
  · have hc33 : c < 2 ^ 33 := Nat.lt_of_lt_of_le hc (Nat.pow_le_pow_right (by decide) (by omega))
    refine ⟨hcap, nofun, ?_⟩
    simp only [publish_mb, BitVec.toNat_ofNat]
    omega

theorem edge_wf {ts : Word} {s t : State} (hcap : s.cap.wf) (hmb : s.mb.wf) (h : edge ts s = .next t) :
    t.cap.wf ∧ t.mb.wf := by
  obtain ⟨-, rfl⟩ | ⟨hd, u, rfl, hu⟩ | ⟨hd, -, rfl⟩ := edge_cases h
  · exact ⟨hcap, hmb⟩
  · have huwf : u.cap.wf ∧ u.mb.wf := by
      obtain ⟨-, rfl⟩ | ⟨-, hu⟩ := hu
      · exact ⟨hcap, hmb⟩
      · have hn : s.cap.changeCount.toNat - 1 ≤ 66 := Nat.sub_le_sub_right hcap.1 1
        exact decodeFrame_wf (s := countSync s) hn hcap hmb hu
    exact ⟨openFrame_cap_wf huwf.1 (Nat.lt_trans (by decide) hd), huwf.2⟩
  · refine ⟨dataEdge_cap_wf hcap hd, ?_⟩
    unfold dataEdge
    split <;> exact hmb

/-- A frame boundary does not stop where the protocol has a row and the count is at most 67 (R84, R122). -/
theorem syncEdge_next {s : State} (hrow : (lookup s.par.ptab s.cfg.proto).isSome = true) (hcap : s.cap.wf)
    (d ts : Word) : ∃ t, syncEdge d ts s = .next t := by
  unfold syncEdge
  split
  · have hn : (adjustedCount s).toNat ≤ 67 := by
      have hcount : s.cap.changeCount.toNat ≤ 67 := hcap.1
      simp only [adjustedCount]
      omega
    obtain ⟨r, hr⟩ := Option.isSome_iff_exists.1 hrow
    obtain ⟨u, hu⟩ := decodeFrame_next (ts := ts) (s := countSync s) hr hn
    exact ⟨_, by rw [hu, andThen_next]⟩
  · exact ⟨_, rfl⟩

/-- An EDGE step does not stop where a frame boundary does not. -/
theorem edge_next {s : State} (hrow : (lookup s.par.ptab s.cfg.proto).isSome = true) (hcap : s.cap.wf) (ts : Word) :
    ∃ t, edge ts s = .next t := by
  unfold edge
  simp only
  split
  · exact ⟨_, rfl⟩
  · split
    · exact syncEdge_next hrow hcap _ ts
    · exact ⟨_, rfl⟩

theorem edge_inv {s : State} (h : s.Inv) (hrx : s.rxEn = true) (ts : Word) : ∃ t, edge ts s = .next t ∧ t.Inv := by
  obtain ⟨hrow, -⟩ := h.rxConfig hrx
  obtain ⟨t, ht⟩ := edge_next hrow h.capture ts
  obtain ⟨hcap, hmb⟩ := edge_wf h.capture h.mailbox ht
  refine ⟨t, ht, ?_⟩
  rw [edge_frame ht]
  exact h.setReceived hrx hcap hmb

theorem padChange_inv {s : State} (h : s.Inv) (level : Bool) : ∃ t, padChange level s = .next t ∧ t.Inv := by
  unfold padChange
  simp only
  split
  · rename_i hedge
    exact edge_inv (h.setPadLevel level) hedge.1 s.now
  · exact ⟨_, rfl, h.setPadLevel level⟩

/-! ### A step -/

/-- Every event answers a next state that meets the invariant. -/
theorem handle_inv {s : State} (h : s.Inv) (e : Event) : ∃ t, handle e s = .next t ∧ t.Inv := by
  cases e with
  | access a =>
    obtain ⟨t, ht⟩ := access_next a s
    exact ⟨t, ht, access_inv h ht⟩
  | pad level => exact padChange_inv h level
  | tick => exact tick_inv h
  | reset => exact ⟨_, rfl, resetStep_inv h.params⟩

/-- While a role is enabled only reset changes the configuration (R15 I5). -/
theorem handle_cfg_of_role {e : Event} {s t : State} (h : handle e s = .next t) (hrole : s.txEn = true ∨ s.rxEn = true)
    (he : e ≠ .reset) : t.cfg = s.cfg := by
  obtain hc | hr | ⟨htx, hrx, -⟩ := handle_cfg h
  · exact hc
  · exact absurd hr he
  · simp [htx, hrx] at hrole

/-- Settles O59, event by event. -/
theorem everyStepKeepsInvariant : Obligations.EveryStepKeepsInvariant := by
  intro s h
  obtain ⟨t, ht, hinv⟩ := handle_inv (h.take s.inputs.tail) s.nextEvent
  exact ⟨t, (step_eq_handle s).trans ht, hinv, handle_cfg_of_role (s := s.take s.inputs.tail) ht⟩

end Sys2Proof.Machine
end

section
/-! PROOFS. Host accesses: admission, bus errors and reads (R51, R52, R58, R135). -/

namespace Sys2Proof.Machine

theorem admitted_iff {n off : Nat} : admitted n off = true ↔ n = 4 ∧ off % 4 = 0 ∧ off < 0x400 := by
  simp [admitted, and_assoc]

/-- An address counts from BASE (R58). -/
theorem targetOffset_address (p : Params) (off : Nat) : targetOffset p (.address (p.base + off)) = some off := by
  simp [targetOffset]

/-- Below BASE an address is outside the window (R135). -/
theorem targetOffset_below_base {p : Params} {addr : Nat} (h : addr < p.base) : targetOffset p (.address addr) = none :=
  if_neg (Nat.not_le.2 h)

section
variable {a : Access} {s : State} {off : Nat}

/-- Outside the window an access is a bus error (R135). -/
theorem access_outside (ht : targetOffset s.par a.target = none) : access a s = .next (busError a.kind s) := by
  rw [access, ht]

/-- A wrong width, alignment or offset is a bus error (R51). -/
theorem access_not_admitted (ht : targetOffset s.par a.target = some off) (ha : ¬admitted a.nbytes off = true) :
    access a s = .next (busError a.kind s) := by
  rw [access, ht]
  exact if_neg ha

/-- An admitted read answers the register's image (R51, R52). -/
theorem access_admitted_read (ht : targetOffset s.par a.target = some off) (ha : admitted a.nbytes off = true)
    (hk : a.kind = .read) : access a s = .next (respond (.data (regRead off s)) s) := by
  simp only [access, ht, ha, hk, if_true]

/-- An admitted write is a register write (R51, R53). -/
theorem access_admitted_write {v : Word} (ht : targetOffset s.par a.target = some off)
    (ha : admitted a.nbytes off = true) (hk : a.kind = .write v) :
    access a s = regWrite off v (respond .written s) := by
  simp only [access, ht, ha, hk, if_true]
end

/-- Settles O41 by `admitted_iff`. -/
theorem onlyAlignedWordsAdmitted : Obligations.OnlyAlignedWordsAdmitted := by
  refine ⟨fun s off n h => ?_, fun s off hal hin => ?_⟩
  · have refused : ¬admitted n off = true := fun ha => h (admitted_iff.1 ha)
    exact ⟨access_not_admitted rfl refused, fun v => access_not_admitted rfl refused⟩
  · have word : admitted 4 off = true := admitted_iff.2 ⟨rfl, hal, hin⟩
    exact ⟨access_admitted_read rfl word rfl, fun v => access_admitted_write rfl word rfl⟩

/-- An access sees its target only as an offset (R51, R58). -/
theorem access_congr_target {s : State} {x y : Target} (h : targetOffset s.par x = targetOffset s.par y) (n : Nat)
    (k : AccessKind) :
    access { target := x, nbytes := n, kind := k } s = access { target := y, nbytes := n, kind := k } s := by
  simp only [access, h]

/-- A bus error changes only the bus's answer (R51). -/
theorem busError_eq_respond (k : AccessKind) (s : State) :
    ∃ resp, (resp = .readError 0#32 ∨ resp = .writeError) ∧ busError k s = respond resp s := by
  cases k with
  | read => exact ⟨_, .inl rfl, rfl⟩
  | write v => exact ⟨_, .inr rfl, rfl⟩

/-- Settles O42: an address is seen only through `targetOffset`. -/
theorem busAddressesCountFromBase : Obligations.BusAddressesCountFromBase := by
  refine fun s n k => ⟨fun off => access_congr_target (targetOffset_address s.par off) n k, fun addr h => ?_⟩
  obtain ⟨resp, hresp, he⟩ := busError_eq_respond k s
  refine ⟨resp, hresp, ?_⟩
  rw [access_outside (targetOffset_below_base h), he]
  rfl

/-- No register shows the bus's answer (R11). -/
theorem regRead_respond (off : Nat) (r : BusResp) (s : State) : regRead off (respond r s) = regRead off s := by
  cases h : regAt off with
  | none => rw [regRead_of_none h, regRead_of_none h]
  | some reg =>
    simp only [regRead, h]
    cases reg <;> rfl

/-- What a read is answered does not depend on the last answer (R52). -/
theorem access_read_respond {a : Access} (hk : a.kind = .read) (r : BusResp) (s : State) :
    access a (respond r s) = access a s := by
  cases ht : targetOffset s.par a.target with
  | none => rw [access_outside ht, access_outside (s := respond r s) ht, hk]; rfl
  | some off =>
    by_cases ha : admitted a.nbytes off = true
    · rw [access_admitted_read ht ha hk, access_admitted_read (s := respond r s) ht ha hk, regRead_respond]; rfl
    · rw [access_not_admitted ht ha, access_not_admitted (s := respond r s) ht ha, hk]; rfl

/-- A read changes only the bus's answer (R52). -/
theorem access_read {a : Access} (hk : a.kind = .read) (s : State) : ∃ r, access a s = .next (respond r s) := by
  obtain ⟨off, v, hw, -⟩ | h := access_cases a s
  · rw [hk] at hw; cases hw
  · exact h

/-- Settles O43: a read leaves a state that differs in the bus's answer only, which no read sees. -/
theorem readsHaveNoSideEffect : Obligations.ReadsHaveNoSideEffect := by
  refine ⟨fun off s h => regRead_of_none h s, fun s => rfl, fun a s hk => ?_⟩
  obtain ⟨r, hr⟩ := access_read hk s
  refine ⟨r, hr, fun t ht => ?_⟩
  obtain rfl : respond r s = t := Host.Outcome.next.inj (hr.symm.trans ht)
  exact ⟨(access_read_respond hk r s).trans hr, fun off => regRead_respond off r s⟩

end Sys2Proof.Machine
end

section
/-! PROOFS. What a register write does at every offset (R53, R77, R78). -/

namespace Sys2Proof.Machine

/-- With both roles disabled a configuration write takes effect (R17, R77). -/
theorem lockedWrite_unlocked {s : State} (htx : s.txEn = false) (hrx : s.rxEn = false) (r : Reg) (v : Word) :
    lockedWrite r v s = { s with cfg := writeCfg r v s.cfg } := by
  simp [lockedWrite, unlocked, htx, hrx]

/-- A register below CMD is written under the lock (R53, R77). -/
theorem regWrite_config {off : Nat} {r : Reg} (hr : regAt off = some r) (h : off < 0x020) (v : Word) (s : State) :
    regWrite off v s = .next (lockedWrite r v s) := by
  obtain ⟨-, rfl⟩ := regAt_eq_some hr
  unfold regWrite
  rw [hr]
  cases r with
  | cmd | txCodeLo | txCodeHi => exact absurd h (by decide)
  | _ => rfl

/-- The writable registers above the configuration are CMD and the halves of TX_CODE (R33, R53). -/
theorem not_writable_of_offset {r : Reg} (h : 0x018 < r.offset) (hcmd : r.offset ≠ 0x020) (hlo : r.offset ≠ 0x028)
    (hhi : r.offset ≠ 0x02C) : r.writable = false := by
  cases r with
  | cmd => exact absurd rfl hcmd
  | txCodeLo => exact absurd rfl hlo
  | txCodeHi => exact absurd rfl hhi
  | cfgProto | cfgPulse | cfgRepeat | cfgBitlen | cfgTol | cfgGpio | cfgFilter => exact absurd h (by decide)
  | _ => rfl

/-- Settles O44, by the kind of register at the offset. -/
theorem registerWriteRule : Obligations.RegisterWriteRule := by
  intro v s
  refine ⟨fun off r hr hoff => ?_, rfl, ⟨_, rfl, codeLo_append _ _, codeHi_append _ _⟩,
    ⟨_, rfl, codeHi_append _ _, codeLo_append _ _⟩, fun off h hcmd hlo hhi => ?_⟩
  · have below : off < 0x020 := by omega
    refine ⟨fun htx hrx => ?_, fun hrole => regWrite_locked below hrole v⟩
    rw [regWrite_config hr below, lockedWrite_unlocked htx hrx]
  · refine regWrite_dropped (fun r hr => ?_) v s
    obtain ⟨-, rfl⟩ := regAt_eq_some hr
    exact not_writable_of_offset h hcmd hlo hhi

end Sys2Proof.Machine
end

section
/-! PROOFS. The slot of the capture buffer that an EDGE step writes (R57, R106-R110). -/

namespace Sys2Proof.Machine

/-- DECODE leaves the capture state (R114). -/
theorem decodeFrame_cap {n : Nat} {ts : Word} {s t : State} (h : decodeFrame n ts s = .next t) : t.cap = s.cap := by
  obtain rfl | ⟨c, -, -, rfl⟩ := decodeFrame_cases h <;> rfl

/-- A frame boundary writes slot 0 (R109). -/
theorem openFrame_slot (d ts : Word) (s : State) (i : Fin 68) :
    (openFrame d ts s).cap.buf[i.val] = if i.val = 0 then d else s.cap.buf[i.val] := by
  simp [Vector.getElem_set, eq_comm]

/-- A data half-pulse writes the slot at the count, if the count is below 67 (R110). -/
theorem dataEdge_slot (d ts : Word) (s : State) (i : Fin 68) :
    (dataEdge d ts s).cap.buf[i.val] =
      if i.val = s.cap.changeCount.toNat ∧ s.cap.changeCount.toNat < 67 then d else s.cap.buf[i.val] := by
  unfold dataEdge
  split
  · rename_i full
    exact (if_neg fun h => Nat.not_lt.2 full h.2).symm
  · rename_i room
    simp [Vector.getElem_setIfInBounds, Nat.lt_of_not_le room, eq_comm]

/-- What each slot holds after an EDGE step (R57). -/
theorem edge_slot {ts : Word} {s t : State} (h : edge ts s = .next t) (i : Fin 68) :
    t.cap.buf[i.val] =
      if 15000 < (edgeDuration ts s).toNat ∧ i.val = 0 then edgeDuration ts s
      else if 300 < (edgeDuration ts s).toNat ∧ (edgeDuration ts s).toNat ≤ 15000 ∧
          i.val = s.cap.changeCount.toNat ∧ s.cap.changeCount.toNat < 67 then edgeDuration ts s
      else s.cap.buf[i.val] := by
  obtain ⟨noise, rfl⟩ | ⟨sync, u, rfl, hu⟩ | ⟨above, data, rfl⟩ := edge_cases h
  · rw [if_neg (by omega), if_neg (by omega)]
  · have buf_u : u.cap.buf = s.cap.buf := by
      obtain ⟨-, rfl⟩ | ⟨-, hu⟩ := hu
      · rfl
      · rw [decodeFrame_cap hu]; rfl
    rw [openFrame_slot]
    simp only [buf_u, sync, Nat.not_le.2 sync, true_and, false_and, and_false, if_false]
  · simp [dataEdge_slot, above, data, Nat.not_lt.2 data]

/-- Settles O31: slot 67 is never the one written, as the count is then at least 67. -/
theorem edgeWritesOneSlot : Obligations.EdgeWritesOneSlot := by
  refine ⟨fun ts s t _ h => ⟨edge_slot h, ?_⟩, fun s => by simp [Capture.cleared]⟩
  exact (edge_slot h (Fin.last 67)).trans <| (if_neg (by simp)).trans <|
    if_neg fun ⟨_, _, hcount, hlt⟩ => hlt.ne hcount.symm

end Sys2Proof.Machine
end

section
/-! PROOFS. The command word: its two fields, which words are legal, and what a written one does (R66, R68, R69, R74). -/

namespace Sys2Proof

/-- A word is its RSV and OP fields (R66). -/
theorem rsv_append_op (v : Word) : v.extractLsb' 4 28 ++ v.extractLsb' 0 4 = v :=
  (BitVec.extractLsb'_append_extractLsb'_eq_extractLsb' rfl).trans BitVec.extractLsb'_eq_self

/-- The fields of a command's word (R66, R68). -/
theorem eq_encode_iff (v : Word) (i : Instr) :
    v = encode i ↔ v.extractLsb' 4 28 = 0#28 ∧ v.extractLsb' 0 4 = i.op := by
  constructor
  · rintro rfl
    exact ⟨BitVec.extractLsb'_append_eq_left, BitVec.extractLsb'_append_eq_right⟩
  · rintro ⟨hrsv, hop⟩
    rw [← rsv_append_op v, hrsv, hop, encode]

/-- The decoder reads the OP column of R68 backwards: sixteen codes against eight rows. -/
theorem decodeOp_eq_ok_iff (op : BitVec 4) (i : Instr) : decodeOp op = .ok i ↔ op = i.op := by
  revert op
  cases i <;> decide

/-- A word is legal by its two fields (R69). -/
theorem decode_eq_ok_iff (v : Word) (i : Instr) :
    decode v = .ok i ↔ v.extractLsb' 4 28 = 0#28 ∧ v.extractLsb' 0 4 = i.op := by
  unfold decode
  split
  · rename_i hrsv
    simp [hrsv]
  · rename_i hrsv
    rw [decodeOp_eq_ok_iff]
    exact (and_iff_right (not_not.1 hrsv)).symm

/-- Settles O2: decoding and being the encoding are the same condition on the two fields. -/
theorem decodeInvertsEncode : Obligations.DecodeInvertsEncode := fun v i =>
  (decode_eq_ok_iff v i).trans (eq_encode_iff v i).symm

theorem decode_encode (i : Instr) : decode (encode i) = .ok i := (decodeInvertsEncode _ i).2 rfl

/-- The OP codes in use are those below 8 (R68, R69). -/
theorem exists_eq_op_iff (op : BitVec 4) : (∃ i : Instr, op = i.op) ↔ op.toNat < 8 := by
  constructor
  · rintro ⟨i, rfl⟩
    cases i <;> decide
  · obtain ⟨n, hn⟩ := op
    intro (h : n < 8)
    interval_cases n
    exacts [⟨.nop, rfl⟩, ⟨.enableTx, rfl⟩, ⟨.disableTx, rfl⟩, ⟨.sendCode, rfl⟩, ⟨.sendBits, rfl⟩, ⟨.enableRx, rfl⟩,
      ⟨.disableRx, rfl⟩, ⟨.poll, rfl⟩]

/-- Which words are illegal (R69). -/
theorem illegal_iff (v : Word) :
    (v.extractLsb' 4 28 ≠ 0#28 ∨ 8 ≤ (v.extractLsb' 0 4).toNat) ↔ ∀ i, decode v ≠ .ok i := by
  rw [← not_exists, ← Nat.not_lt, ← exists_eq_op_iff, ← not_and_or, ← exists_and_left]
  simp only [decode_eq_ok_iff]

namespace Machine

/-- Settles O3: `command_cases` has only the illegal word's effect where no command is decoded. -/
theorem illegalWordOnlySetsErr : Obligations.IllegalWordOnlySetsErr := by
  refine ⟨illegal_iff, fun v s hillegal => ?_, rfl, decode_encode .nop⟩
  obtain ⟨-, h⟩ | ⟨i, hlegal, -⟩ := command_cases v s
  · exact h
  · exact absurd hlegal (hillegal i)

/-- Settles O1: each of the eight words is the encoding of its command. -/
theorem commandWordsDecode : Obligations.CommandWordsDecode :=
  ⟨decode_encode .nop, decode_encode .enableTx, decode_encode .disableTx, decode_encode .sendCode,
    decode_encode .sendBits, decode_encode .enableRx, decode_encode .disableRx, decode_encode .poll⟩

theorem command_eq_exec {v : Word} {i : Instr} (h : decode v = .ok i) (s : State) : command v s = exec i s := by
  rw [command, h]

/-- The access that issues a command word is that word as a command, on the state with the bus answered (R66, R74). -/
theorem access_commandWrite (w : Word) (s : State) : access (commandWrite w) s = command w (respond .written s) := rfl

/-- The low 32 bits of a 32-bit word, as `withFetchWord` takes them, are the word (log 2). -/
theorem ofNat_low_bits (w : Word) : BitVec.ofNat 32 (w.toNat % 2 ^ 32) = w := by
  rw [Nat.mod_eq_of_lt w.isLt, BitVec.ofNat_toNat, BitVec.setWidth_eq]

/-- Settles O5: the head of the list is taken and handled as a command write. -/
theorem stepRunsDecodedCommand : Obligations.StepRunsDecodedCommand := by
  have run {s : State} {rest : List Event} {w : Word} {i : Instr} (hin : s.inputs = .access (commandWrite w) :: rest)
      (hd : decode w = .ok i) : step s = exec i { s with inputs := rest, busResp := some .written } := by
    rw [step, hin]
    exact (access_commandWrite w _).trans (command_eq_exec hd _)
  refine ⟨fun s rest w i => run, fun s i => ?_⟩
  rw [State.withFetchWord, ofNat_low_bits]
  exact run rfl (decode_encode i)

end Machine
end Sys2Proof
end

section
/-! PROOFS. Host programs: what the turns of a line do, and that a finished run is an encoding of its lines (R71, R73). -/

namespace Sys2Proof.Machine

/-- No register shows the bus's answer (R11). -/
theorem readReg_setBusResp (r : Reg) (s : State) (b : Option BusResp) :
    readReg r { s with busResp := b } = readReg r s := by
  cases r <;> rfl

/-- A `rd` line's access answers the register's image (R52, R71). -/
theorem perform_readAccess {r : Reg} (hr : r.wf = true) (s : State) :
    perform (.access (readAccess r)) s = .next { s with busResp := some (.data (readReg r s)) } := by
  obtain ⟨hal, hin⟩ := offset_in_window hr
  rw [perform_eq, handle, access_admitted_read rfl (admitted_iff.2 ⟨rfl, hal, hin⟩) rfl, regRead_offset hr,
    readReg_setBusResp]
  rfl

/-- A `wr` line's access is the register write (R53, R71). -/
theorem perform_writeAccess {r : Reg} (hr : r.wf = true) (v : Word) (s : State) :
    perform (.access (writeAccess r v)) s = regWrite r.offset v { s with busResp := some .written } := by
  obtain ⟨hal, hin⟩ := offset_in_window hr
  rw [perform_eq, handle, access_admitted_write rfl (admitted_iff.2 ⟨rfl, hal, hin⟩) rfl]
  rfl

/-- A `cmd` line's access is its command (R66, R74). -/
theorem perform_command (i : Instr) (s : State) :
    perform (.access (writeAccess .cmd (encode i))) s = exec i { s with busResp := some .written } :=
  (perform_writeAccess rfl _ s).trans (command_eq_exec (decode_encode i) _)

/-- Only a `delay` that a program has come to is counted by another agent's turn (log 16). -/
theorem passed_eq_self_or (e : Event) (h : ProgramRun) :
    h.passed e = h ∨ ∃ n rest, h.todo = .line (.delay (n + 1)) :: rest ∧
      h.passed e = { h with todo := .line (.delay n) :: rest } := by
  unfold ProgramRun.passed
  split
  · exact .inr ⟨_, _, ‹_›, rfl⟩
  · exact .inl rfl

/-- An encoding of what is left of a program, after the transactions `acc`, is one of the program (R73). -/
def EncodesAfter (lines rest : List Line) (acc : List Access) : Prop :=
  ∀ tr, encodesProgram rest tr → encodesProgram lines (acc ++ tr)

theorem EncodesAfter.refl (lines : List Line) : EncodesAfter lines lines [] := fun _ h => h

/-- A line that is done has had its transactions. -/
theorem EncodesAfter.done (l : Line) (rest : List Line) : EncodesAfter (l :: rest) rest (l.transactions 0) :=
  fun tr h => ⟨0, tr, rfl, h⟩

/-- A read that shows BUSY is one more of the reads of a `wait_idle` (R72). -/
theorem EncodesAfter.waiting (rest : List Line) :
    EncodesAfter (.waitIdle :: rest) (.waitIdle :: rest) [readAccess .status] := by
  rintro tr ⟨more, tail, rfl, h⟩
  exact ⟨more + 1, tail, rfl, h⟩

/-- A `delay` has no transaction, whatever is left of it (R71). -/
theorem EncodesAfter.delay (n m : Nat) (rest : List Line) : EncodesAfter (.delay n :: rest) (.delay m :: rest) [] :=
  fun _ h => h

/-- What a turn leaves of a program of lines, with the transactions it performed. -/
def LinesAdvance (lines : List Line) (h g : ProgramRun) : Prop :=
  ∃ rest acc, g.todo = rest.map .line ∧ g.trace = h.trace ++ acc ∧ EncodesAfter lines rest acc

/-- A turn with no transaction. -/
theorem LinesAdvance.of_no_access {lines rest : List Line} {h g : ProgramRun} (htodo : g.todo = rest.map .line)
    (htrace : g.trace = h.trace) (hafter : EncodesAfter lines rest []) : LinesAdvance lines h g :=
  ⟨rest, [], htodo, htrace.trans (List.append_nil _).symm, hafter⟩

theorem programTurn_linesAdvance {lines : List Line} {h g : ProgramRun} {s t : State} (htodo : h.todo = lines.map .line)
    (hturn : programTurn h s = .next (g, t)) : LinesAdvance lines h g := by
  cases lines with
  | nil =>
    rw [programTurn, htodo] at hturn
    cases hturn
    exact .of_no_access (rest := []) htodo rfl (.refl _)
  | cons l rest =>
    rw [programTurn, htodo] at hturn
    cases l with
    | wr r v =>
      obtain ⟨-, rfl⟩ := issue_eq_next hturn
      exact ⟨rest, _, rfl, rfl, .done _ rest⟩
    | rd r =>
      obtain ⟨-, rfl⟩ := issue_eq_next hturn
      exact ⟨rest, _, rfl, rfl, .done _ rest⟩
    | cmd i =>
      obtain ⟨-, rfl⟩ := issue_eq_next hturn
      exact ⟨rest, _, rfl, rfl, .done _ rest⟩
    | waitIdle =>
      obtain ⟨-, rfl⟩ := issue_eq_next hturn
      split
      · exact ⟨_, _, htodo, rfl, .waiting rest⟩
      · exact ⟨rest, _, rfl, rfl, .done _ rest⟩
    | edgeAt t =>
      simp only [List.map_cons] at hturn
      split at hturn
      · obtain ⟨u, -, he⟩ := andThen_eq_next hturn
        cases he
        exact .of_no_access rfl rfl (.done (.edgeAt t) rest)
      · obtain ⟨u, -, he⟩ := andThen_eq_next hturn
        cases he
        exact .of_no_access htodo rfl (.refl _)
    | delay n =>
      cases n with
      | zero =>
        cases hturn
        exact .of_no_access rfl rfl (.done (.delay 0) rest)
      | succ n =>
        obtain ⟨u, -, he⟩ := andThen_eq_next hturn
        cases he
        exact .of_no_access (rest := .delay n :: rest) rfl rfl (.delay _ _ rest)

theorem takeTurn_linesAdvance {w : Turn} {lines : List Line} {h g : ProgramRun} {s t : State}
    (htodo : h.todo = lines.map .line) (hturn : takeTurn w h s = .next (g, t)) : LinesAdvance lines h g := by
  cases w with
  | program => exact programTurn_linesAdvance htodo hturn
  | other e =>
    obtain ⟨-, rfl⟩ := takeTurn_other_eq_next hturn
    obtain he | ⟨n, rest, hdelay, he⟩ := passed_eq_self_or e h
    · rw [he]
      exact .of_no_access htodo rfl (.refl _)
    · rw [hdelay] at htodo
      obtain ⟨l, ls, rfl, hl, rfl⟩ := List.map_eq_cons_iff.1 htodo.symm
      cases hl
      rw [he]
      exact .of_no_access (rest := .delay n :: ls) rfl rfl (.delay _ _ ls)

/-- Whatever the turns, the transactions of a finished run are an encoding of the lines it had to do (R73). -/
theorem runTurns_encodesProgram {turns : List Turn} {lines : List Line} {h g : ProgramRun} {s t : State}
    (htodo : h.todo = lines.map .line) (hrun : runTurns turns h s = .next (g, t)) (hdone : g.todo = []) :
    ∃ tr, g.trace = h.trace ++ tr ∧ encodesProgram lines tr := by
  induction turns generalizing lines h s with
  | nil =>
    cases hrun
    obtain rfl := List.map_eq_nil_iff.1 (htodo.symm.trans hdone)
    exact ⟨[], (List.append_nil _).symm, rfl⟩
  | cons w ws ih =>
    obtain ⟨h', s', hturn, hrest⟩ := runTurns_cons_eq_next hrun
    obtain ⟨rest, acc, htodo', htrace, hafter⟩ := takeTurn_linesAdvance htodo hturn
    obtain ⟨tr, htr, henc⟩ := ih htodo' hrest
    exact ⟨acc ++ tr, by rw [htr, htrace, List.append_assoc], hafter tr henc⟩

/-! ### The turns of the lines that access a register -/

section
variable {h : ProgramRun} {rest : List HostOp}

/-- A `cmd` line's turn is its command (R73, R74). -/
theorem programTurn_cmd {i : Instr} (htodo : h.todo = .line (.cmd i) :: rest) (s : State) :
    programTurn h s = andThen (exec i { s with busResp := some .written }) fun t =>
      .next ({ h with todo := rest, trace := h.trace ++ [commandWrite (encode i)] }, t) := by
  rw [programTurn, htodo, ← perform_command]
  rfl

/-- A `wr` line's turn is its register write (R73). -/
theorem programTurn_wr {r : Reg} {v : Word} (hr : r.wf = true) (htodo : h.todo = .line (.wr r v) :: rest) (s : State) :
    programTurn h s = andThen (regWrite r.offset v { s with busResp := some .written }) fun t =>
      .next ({ h with todo := rest, trace := h.trace ++ [writeAccess r v] }, t) := by
  rw [programTurn, htodo, ← perform_writeAccess hr]
  rfl

/-- An issued read goes on from the register's image and changes only the bus's answer (R52). -/
theorem issue_readAccess {r : Reg} (hr : r.wf = true) (next : Word → ProgramRun → ProgramRun) (s : State) :
    issue (readAccess r) h next s =
      .next (next (readReg r s) { h with trace := h.trace ++ [readAccess r] },
        { s with busResp := some (.data (readReg r s)) }) := by
  rw [issue, perform_readAccess hr]
  rfl

/-- A `rd` line's turn takes the register's image (R73). -/
theorem programTurn_rd {r : Reg} (hr : r.wf = true) (htodo : h.todo = .line (.rd r) :: rest) (s : State) :
    programTurn h s =
      .next ({ h with todo := rest, reads := h.reads ++ [readReg r s], trace := h.trace ++ [readAccess r] },
        { s with busResp := some (.data (readReg r s)) }) := by
  rw [programTurn, htodo]
  exact issue_readAccess hr _ s

/-- A turn of `wait_idle` is a read of STATUS, the last one if BUSY is 0 (R72). -/
theorem programTurn_waitIdle (htodo : h.todo = .line .waitIdle :: rest) (s : State) :
    programTurn h s =
      .next ({ h with todo := if s.busy = true then h.todo else rest, trace := h.trace ++ [readAccess .status] },
        { s with busResp := some (.data (statusImage s)) }) := by
  rw [programTurn, htodo]
  refine (issue_readAccess rfl _ s).trans ?_
  simp only [readReg, statusImage_busy]
  split
  · rw [htodo]
  · rfl

/-- Only OK has the code 0 (R132). -/
theorem ErrCode.code_eq_zero_iff (c : ErrCode) : c.code = 0#4 ↔ c = .ok := by
  cases c <;> decide

/-- The turn of `(s, e)` takes the code of ERR; a `wait_idle` follows where the program asks for one and e = OK (R72). -/
theorem programTurn_takeResult {thenWait : Bool} (htodo : h.todo = .takeResult thenWait :: rest) (s : State) :
    programTurn h s =
      .next ({ h with
          todo := if thenWait = true ∧ s.err = .ok then .line .waitIdle :: rest else rest
          result := some s.err.code
          trace := h.trace ++ [readAccess .status] },
        { s with busResp := some (.data (statusImage s)) }) := by
  rw [programTurn, htodo]
  refine (issue_readAccess rfl _ s).trans ?_
  simp only [readReg, statusImage_err, Bool.and_eq_true, beq_iff_eq, ErrCode.code_eq_zero_iff]

end

/-- Settles O50: the transactions are read off the lines, and `runTurns_encodesProgram` is the induction over the turns. -/
theorem linesAreTheirTransactions : Obligations.LinesAreTheirTransactions := by
  refine ⟨fun _ _ _ => rfl, fun _ _ => rfl, fun _ _ => rfl, fun _ => rfl, fun lines turns s t h hrun hdone => ?_,
    fun h i rest s htodo => programTurn_cmd htodo s, rfl, rfl⟩
  obtain ⟨tr, htr, henc⟩ := runTurns_encodesProgram (h := .start _) rfl hrun hdone
  rw [htr]
  exact henc

end Sys2Proof.Machine
end

section
/-! PROOFS. Programs in every quiet interleaving: claims that the timer, the pad and reads keep, and one rule per kind of
line to go from claim to claim (R72; log 16). -/

namespace Sys2Proof.Machine

/-- What ticks, pad changes and the bus's answers never change, and how far they may change BUSY. -/
structure QuietFrame (s t : State) : Prop where
  cfg : t.cfg = s.cfg
  txEn : t.txEn = s.txEn
  rxEn : t.rxEn = s.rxEn
  err : t.err = s.err
  txCode : t.txCode = s.txCode
  poll : t.poll = s.poll
  notBusy : s.busy = false → t.busy = false
  inv : s.Inv → t.Inv

theorem QuietFrame.setBusResp (s : State) (b : Option BusResp) : QuietFrame s { s with busResp := b } :=
  ⟨rfl, rfl, rfl, rfl, rfl, rfl, id, fun h => h.of_unconstrained _ _ _ _ _⟩

/-- The timer never starts a send (R99). -/
theorem tick_notBusy {s t : State} (h : tick s = .next t) (hb : s.busy = false) : t.busy = false := by
  rw [tick, engineTick, if_pos (show (advanceNow s).busy = false from hb)] at h
  cases h
  exact hb

/-- Every event performed keeps the invariant (R15). -/
theorem perform_inv {e : Event} {s t : State} (h : perform e s = .next t) (hs : s.Inv) : t.Inv := by
  obtain ⟨u, hu, hinv⟩ := handle_inv (s := { s with busResp := none }) (hs.of_unconstrained _ _ _ _ _) e
  cases h.symm.trans hu
  exact hinv

/-- A quiet turn of another agent is a tick or a pad change (log 16). -/
theorem perform_quietFrame {e : Event} {s t : State} (he : (Turn.other e).quiet = true)
    (h : perform e s = .next t) : QuietFrame s t := by
  cases e with
  | tick =>
    have hframe := tick_frame (s := { s with busResp := none }) h
    constructor
    case notBusy => exact tick_notBusy (s := { s with busResp := none }) h
    case inv => exact perform_inv h
    all_goals rw [hframe]
  | pad level =>
    have hframe := padChange_frame (s := { s with busResp := none }) h
    constructor
    case notBusy => rw [hframe]; exact id
    case inv => exact perform_inv h
    all_goals rw [hframe]
  | access a => cases he
  | reset => cases he

/-- A claim about a program's result, its data read and the state, which no quiet turn of another agent and no read of the
program's own makes false. -/
structure Claim where
  holds : Option (BitVec 4) → List Word → State → Prop
  kept : ∀ {res reads s t}, QuietFrame s t → holds res reads s → holds res reads t

/-- In every quiet interleaving a program with `ops` to do leads from one claim to another, if it comes to its end. -/
def Leads (P : Claim) (ops : List HostOp) (Q : Claim) : Prop :=
  ∀ (turns : List Turn) (h g : ProgramRun) (s t : State), (∀ w ∈ turns, w.quiet = true) → h.todo = ops →
    P.holds h.result h.reads s → runTurns turns h s = .next (g, t) → g.todo = [] → Q.holds g.result g.reads t

/-- After its end a program's claim stays. -/
theorem Leads.refl (P : Claim) : Leads P [] P := by
  intro turns h g s t hquiet htodo hP hrun hdone
  induction turns generalizing h s with
  | nil => cases hrun; exact hP
  | cons w ws ih =>
    obtain ⟨hw, hws⟩ := List.forall_mem_cons.1 hquiet
    obtain ⟨h', s', hturn, hrest⟩ := runTurns_cons_eq_next hrun
    cases w with
    | program =>
      rw [takeTurn, programTurn, htodo] at hturn
      cases hturn
      exact ih _ _ hws htodo hP hrest
    | other e =>
      obtain ⟨hp, rfl⟩ := takeTurn_other_eq_next hturn
      obtain he | ⟨n, rest, hdelay, -⟩ := passed_eq_self_or e h
      · rw [he] at hrest
        exact ih _ _ hws htodo (P.kept (perform_quietFrame hw hp) hP) hrest
      · cases htodo.symm.trans hdelay

/-- A program leads on if each turn of its first element, which is no `delay`, leaves it as it was or leads on. -/
theorem Leads.of_programTurn {P Q : Claim} {o : HostOp} {rest : List HostOp} (hdelay : ∀ n, o ≠ .line (.delay n))
    (hturn : ∀ h g s t, h.todo = o :: rest → P.holds h.result h.reads s → programTurn h s = .next (g, t) →
      (g.todo = o :: rest ∧ P.holds g.result g.reads t) ∨
        ∃ P' : Claim, P'.holds g.result g.reads t ∧ Leads P' g.todo Q) :
    Leads P (o :: rest) Q := by
  intro turns h g s t hquiet htodo hP hrun hdone
  induction turns generalizing h s with
  | nil => cases hrun; cases htodo.symm.trans hdone
  | cons w ws ih =>
    obtain ⟨hw, hws⟩ := List.forall_mem_cons.1 hquiet
    obtain ⟨h', s', hnow, hrest⟩ := runTurns_cons_eq_next hrun
    cases w with
    | program =>
      obtain ⟨htodo', hP'⟩ | ⟨P', hP', hlead⟩ := hturn h h' s s' htodo hP hnow
      · exact ih _ _ hws htodo' hP' hrest
      · exact hlead ws h' g s' t hws rfl hP' hrest hdone
    | other e =>
      obtain ⟨hp, rfl⟩ := takeTurn_other_eq_next hnow
      obtain he | ⟨n, rest', htodo', -⟩ := passed_eq_self_or e h
      · rw [he] at hrest
        exact ih _ _ hws htodo (P.kept (perform_quietFrame hw hp) hP) hrest
      · cases htodo.symm.trans htodo'
        exact absurd rfl (hdelay _)

section
variable {P P' Q : Claim} {rest : List HostOp}

/-- The rule of a `wr` line. -/
theorem Leads.wr {r : Reg} {v : Word} (hr : r.wf = true)
    (hwrite : ∀ res reads s t, P.holds res reads s → regWrite r.offset v s = .next t → P'.holds res reads t)
    (hrest : Leads P' rest Q) : Leads P (.line (.wr r v) :: rest) Q := by
  refine .of_programTurn nofun fun h g s t htodo hP hturn => ?_
  obtain ⟨u, hu, he⟩ := andThen_eq_next ((programTurn_wr hr htodo s).symm.trans hturn)
  cases he
  exact .inr ⟨P', hwrite _ _ _ _ (P.kept (.setBusResp s _) hP) hu, hrest⟩

/-- The rule of a `cmd` line. -/
theorem Leads.cmd {i : Instr}
    (hexec : ∀ res reads s t, P.holds res reads s → exec i s = .next t → P'.holds res reads t)
    (hrest : Leads P' rest Q) : Leads P (.line (.cmd i) :: rest) Q := by
  refine .of_programTurn nofun fun h g s t htodo hP hturn => ?_
  obtain ⟨u, hu, he⟩ := andThen_eq_next ((programTurn_cmd htodo s).symm.trans hturn)
  cases he
  exact .inr ⟨P', hexec _ _ _ _ (P.kept (.setBusResp s _) hP) hu, hrest⟩

/-- The rule of a `rd` line. -/
theorem Leads.rd {r : Reg} (hr : r.wf = true)
    (hread : ∀ res reads s, P.holds res reads s → P'.holds res (reads ++ [readReg r s]) s)
    (hrest : Leads P' rest Q) : Leads P (.line (.rd r) :: rest) Q := by
  refine .of_programTurn nofun fun h g s t htodo hP hturn => ?_
  cases (programTurn_rd hr htodo s).symm.trans hturn
  exact .inr ⟨P', P'.kept (.setBusResp s _) (hread _ _ _ hP), hrest⟩

/-- The rule of a `wait_idle` line: its last read finds BUSY = 0. -/
theorem Leads.waitIdle (hidle : ∀ res reads s, P.holds res reads s → s.busy = false → P'.holds res reads s)
    (hrest : Leads P' rest Q) : Leads P (.line .waitIdle :: rest) Q := by
  refine .of_programTurn nofun fun h g s t htodo hP hturn => ?_
  cases (programTurn_waitIdle htodo s).symm.trans hturn
  by_cases hb : s.busy = true
  · rw [if_pos hb]
    exact .inl ⟨htodo, P.kept (.setBusResp s _) hP⟩
  · rw [if_neg hb]
    exact .inr ⟨P', P'.kept (.setBusResp s _) (hidle _ _ _ hP (Bool.not_eq_true _ ▸ hb)), hrest⟩

/-- The rule of `(s, e)` with no wait after it. -/
theorem Leads.takeResult (htake : ∀ res reads s, P.holds res reads s → P'.holds (some s.err.code) reads s)
    (hrest : Leads P' rest Q) : Leads P (.takeResult false :: rest) Q := by
  refine .of_programTurn nofun fun h g s t htodo hP hturn => ?_
  cases (programTurn_takeResult htodo s).symm.trans hturn
  exact .inr ⟨P', P'.kept (.setBusResp s _) (htake _ _ _ hP), hrest⟩

/-- The rule of `(s, e)` after which a `wait_idle` follows if e = OK: one claim for each of the two ways on. -/
theorem Leads.takeResultThenWait {R : Claim}
    (hok : ∀ res reads s, P.holds res reads s → s.err = .ok → P'.holds (some s.err.code) reads s)
    (hwait : Leads P' (.line .waitIdle :: rest) Q)
    (hrejected : ∀ res reads s, P.holds res reads s → s.err ≠ .ok → R.holds (some s.err.code) reads s)
    (hrest : Leads R rest Q) : Leads P (.takeResult true :: rest) Q := by
  refine .of_programTurn nofun fun h g s t htodo hP hturn => .inr ?_
  cases (programTurn_takeResult htodo s).symm.trans hturn
  by_cases herr : s.err = .ok
  · rw [if_pos ⟨rfl, herr⟩]
    exact ⟨P', P'.kept (.setBusResp s _) (hok _ _ _ hP herr), hwait⟩
  · rw [if_neg fun h => herr h.2]
    exact ⟨R, R.kept (.setBusResp s _) (hrejected _ _ _ hP herr), hrest⟩
end

end Sys2Proof.Machine
end

section
/-! PROOFS. What the host sequences of R72 leave and the results they take. -/

namespace Sys2Proof.Machine

/-! ### What a command's result says -/

/-- No command raises OK as an error (R132). -/
theorem commandBody_error_ne_ok {i : Instr} {s : State} {c : ErrCode} (h : commandBody i s = .error c) : c ≠ .ok := by
  cases i with
  | nop | poll => cases h
  | enableTx =>
    simp only [commandBody, enableTxBody] at h
    split at h
    · cases h; decide
    · split at h <;> cases h
  | disableTx =>
    simp only [commandBody, disableTxBody] at h
    split at h <;> cases h
  | sendCode | sendBits =>
    simp only [commandBody] at h
    obtain ⟨-, he⟩ | ⟨-, -, he⟩ | ⟨-, r, -, ⟨-, he⟩ | ⟨-, -, -, -, he⟩ | ⟨-, -, -, -, he⟩⟩ := startSend_cases _ _ s <;>
      rw [he] at h <;> cases h <;> decide
  | enableRx =>
    simp only [commandBody, enableRxBody] at h
    split at h
    · cases h; decide
    · split at h
      · cases h
      · split at h
        · cases h; decide
        · split at h <;> cases h
          decide
  | disableRx =>
    simp only [commandBody, disableRxBody] at h
    split at h <;> cases h

/-- ERR tells an accepted command, which has had its effect, from a rejected one, which wrote ERR only (R74, R75). -/
theorem exec_result {i : Instr} {s t : State} (h : exec i s = .next t) :
    (t.err = .ok ∧ s.busy = false ∧ ∃ u, commandBody i s = .ok u ∧ t = setErr .ok u) ∨
      (t.err ≠ .ok ∧ t = setErr t.err s) := by
  rw [exec_eq_commandBody] at h
  obtain ⟨-, rfl⟩ | ⟨-, c, hc, rfl⟩ | ⟨hb, u, hu, rfl⟩ := runCommand_cases h
  · exact .inr ⟨by simp, rfl⟩
  · exact .inr ⟨commandBody_error_ne_ok hc, rfl⟩
  · exact .inl ⟨rfl, hb, u, hu, rfl⟩

/-- What every accepted effect of a command has, a result of OK says. -/
theorem exec_ok_elim {i : Instr} {s t : State} {P : State → Prop} (h : exec i s = .next t) (hok : t.err = .ok)
    (hbody : ∀ u, commandBody i s = .ok u → P (setErr .ok u)) : P t := by
  obtain ⟨-, -, u, hu, rfl⟩ | ⟨hne, -⟩ := exec_result h
  · exact hbody u hu
  · exact absurd hok hne

theorem enableTxBody_txEn {s t : State} (h : enableTxBody s = .ok t) : t.txEn = true := by
  unfold enableTxBody at h
  split at h
  · cases h
  · split at h <;> cases h
    · assumption
    · rfl

/-- DISABLE_TX raises no error of its own (R91). -/
theorem disableTxBody_txEn (s : State) : ∃ t, disableTxBody s = .ok t ∧ t.txEn = false := by
  unfold disableTxBody
  split
  · exact ⟨_, rfl, rfl⟩
  · exact ⟨s, rfl, Bool.not_eq_true _ ▸ ‹_›⟩

theorem enableRxBody_rxEn {s t : State} (h : enableRxBody s = .ok t) : t.rxEn = true := by
  unfold enableRxBody at h
  split at h
  · cases h
  · split at h
    · cases h; assumption
    · split at h
      · cases h
      · split at h <;> cases h
        rfl

theorem disableRxBody_rxEn {s t : State} (h : disableRxBody s = .ok t) : t.rxEn = false := by
  unfold disableRxBody at h
  split at h <;> cases h
  · rfl
  · exact Bool.not_eq_true _ ▸ ‹_›

/-! ### Claims of the operations -/

/-- What ticks, pad changes and reads never make false of a state. -/
def Kept (φ : State → Prop) : Prop := ∀ s t : State, QuietFrame s t → φ s → φ t

/-- A claim about the state alone. -/
def Claim.ofState (φ : State → Prop) (h : Kept φ) : Claim := ⟨fun _ _ s => φ s, fun hq hs => h _ _ hq hs⟩

/-- A claim about the state, with the code of ERR as the result taken. -/
def Claim.withResult (φ : State → Prop) (h : Kept φ) : Claim :=
  ⟨fun res _ s => res = some s.err.code ∧ φ s, fun hq ⟨hres, hs⟩ => ⟨by rw [hres, hq.err], h _ _ hq hs⟩⟩

/-- Nothing is claimed. -/
def Claim.trivial : Claim := .ofState (fun _ => True) fun _ _ _ _ => True.intro

section
variable {φ : State → Prop} (hφ : Kept φ)
include hφ

theorem kept_okMeans : Kept fun s => s.err = .ok → φ s := fun _ _ hq h herr => hφ _ _ hq (h (hq.err.symm.trans herr))

/-- A command whose result is then read: `enable_transmit` and `enable_receive` (R72). -/
theorem leads_cmd_takeResult {i : Instr} (hbody : ∀ s u, commandBody i s = .ok u → φ (setErr .ok u)) :
    Leads .trivial [.line (.cmd i), .takeResult false] (.withResult _ (kept_okMeans hφ)) :=
  .cmd (P' := .ofState _ (kept_okMeans hφ)) (fun _ _ s _ _ hexec hok => exec_ok_elim hexec hok (hbody s)) <|
    .takeResult (P' := .withResult _ (kept_okMeans hφ)) (fun _ _ _ h => ⟨rfl, h⟩) (.refl _)
end

theorem kept_txEn (b : Bool) : Kept fun s => s.txEn = b := fun _ _ hq h => hq.txEn.trans h

theorem kept_rxEn (b : Bool) : Kept fun s => s.rxEn = b := fun _ _ hq h => hq.rxEn.trans h

theorem kept_notBusy : Kept fun s => s.busy = false := fun _ _ hq h => hq.notBusy h

theorem enableTransmit_leads :
    Leads .trivial enableTransmit (.withResult _ (kept_okMeans (kept_txEn true))) :=
  leads_cmd_takeResult (i := .enableTx) (kept_txEn true) fun _ _ => enableTxBody_txEn

theorem enableReceive_leads :
    Leads .trivial enableReceive (.withResult _ (kept_okMeans (kept_rxEn true))) :=
  leads_cmd_takeResult (i := .enableRx) (kept_rxEn true) fun _ _ => enableRxBody_rxEn

theorem disableReceive_leads : Leads .trivial disableReceive (.ofState _ (kept_okMeans (kept_rxEn false))) :=
  .cmd (P' := .ofState _ (kept_okMeans (kept_rxEn false)))
    (fun _ _ _ _ _ hexec hok => exec_ok_elim (P := fun s => s.rxEn = false) hexec hok fun _ => disableRxBody_rxEn)
    (.refl _)

theorem kept_transmitDisabled : Kept fun s => s.err = .ok ∧ s.txEn = false := fun _ _ hq ⟨herr, htx⟩ =>
  ⟨hq.err.trans herr, hq.txEn.trans htx⟩

/-- No send can start between the read that shows BUSY = 0 and DISABLE_TX, so it is not rejected (R91, R99). -/
theorem disableTransmit_leads : Leads .trivial disableTransmit (.ofState _ kept_transmitDisabled) :=
  .waitIdle (P' := .ofState _ kept_notBusy) (fun _ _ _ _ hb => hb) <|
    .cmd (fun _ _ s t hb hexec => by
      obtain ⟨u, hu, htx⟩ := disableTxBody_txEn s
      cases (runCommand_ok hb hu).symm.trans hexec
      exact ⟨rfl, htx⟩) (.refl _)

/-! ### `configure` -/

/-- A configuration, with the roles that lock it or not (R17). -/
def Claim.config (c : Cfg) (tx rx : Bool) : Claim :=
  .ofState (fun s => s.cfg = c ∧ s.txEn = tx ∧ s.rxEn = rx) fun _ _ hq ⟨hc, htx, hrx⟩ =>
    ⟨hq.cfg.trans hc, hq.txEn.trans htx, hq.rxEn.trans hrx⟩

section
variable {c : Cfg} {r : Reg} {v : Word} {rest : List HostOp} {Q : Claim}

/-- With both roles disabled a configuration line stores its field (R17, R77). -/
theorem Leads.wr_unlocked (hr : r.wf = true) (hoff : r.offset < 0x020)
    (hrest : Leads (.config (writeCfg r v c) false false) rest Q) :
    Leads (.config c false false) (.line (.wr r v) :: rest) Q := by
  refine .wr hr (fun _ _ s t ⟨hc, htx, hrx⟩ hw => ?_) hrest
  rw [regWrite_config (regAt_offset hr) hoff, lockedWrite_unlocked htx hrx, hc] at hw
  cases hw
  exact ⟨rfl, htx, hrx⟩

/-- With a role enabled a configuration line changes nothing (R17). -/
theorem Leads.wr_locked {tx rx : Bool} (hrole : tx = true ∨ rx = true) (hr : r.wf = true) (hoff : r.offset < 0x020)
    (hrest : Leads (.config c tx rx) rest Q) : Leads (.config c tx rx) (.line (.wr r v) :: rest) Q := by
  refine .wr hr (fun _ _ s t ⟨hc, htx, hrx⟩ hw => ?_) hrest
  rw [regWrite_locked hoff (htx ▸ hrx ▸ hrole)] at hw
  cases hw
  exact ⟨hc, htx, hrx⟩
end

/-- The configuration that `configure` stores (R72). -/
def configured (g p o r b tol : Word) (c : Cfg) : Cfg :=
  writeCfg .cfgTol tol <| writeCfg .cfgBitlen b <| writeCfg .cfgRepeat r <| writeCfg .cfgPulse o <|
    writeCfg .cfgProto p <| writeCfg .cfgGpio g c

theorem configure_leads_unlocked (g p o r b tol : Word) (c : Cfg) :
    Leads (.config c false false) (configure g p o r b tol) (.config (configured g p o r b tol c) false false) :=
  .wr_unlocked rfl (by decide) <| .wr_unlocked rfl (by decide) <| .wr_unlocked rfl (by decide) <|
    .wr_unlocked rfl (by decide) <| .wr_unlocked rfl (by decide) <| .wr_unlocked rfl (by decide) (.refl _)

theorem configure_leads_locked (g p o r b tol : Word) (c : Cfg) {tx rx : Bool} (hrole : tx = true ∨ rx = true) :
    Leads (.config c tx rx) (configure g p o r b tol) (.config c tx rx) :=
  .wr_locked hrole rfl (by decide) <| .wr_locked hrole rfl (by decide) <| .wr_locked hrole rfl (by decide) <|
    .wr_locked hrole rfl (by decide) <| .wr_locked hrole rfl (by decide) <| .wr_locked hrole rfl (by decide) (.refl _)

/-! ### `poll_received` -/

/-- The registers of the poll result (R44). -/
def Reg.showsPoll : Reg → Bool
  | .pollStat | .pollCodeLo | .pollCodeHi | .pollTs => true
  | _ => false

theorem readReg_of_showsPoll {r : Reg} (hr : r.showsPoll = true) {s t : State} (h : t.poll = s.poll) :
    readReg r t = readReg r s := by
  cases r with
  | pollStat | pollCodeLo | pollCodeHi | pollTs => simp only [readReg, h]
  | _ => cases hr

/-- The data read so far are the images of these poll registers. -/
def Claim.pollRead (rs : List Reg) (hrs : ∀ r ∈ rs, r.showsPoll = true) : Claim where
  holds := fun _ reads s => reads = rs.map (readReg · s)
  kept := fun hq h => h.trans <| List.map_congr_left fun r hr => (readReg_of_showsPoll (hrs r hr) hq.poll).symm

/-- A `rd` line of a poll register adds its image. -/
theorem Leads.rd_poll {rs : List Reg} {hrs : ∀ r ∈ rs, r.showsPoll = true} {r : Reg} (hr : r.wf = true)
    {hrs' : ∀ x ∈ rs ++ [r], x.showsPoll = true} {rest : List HostOp} {Q : Claim}
    (hrest : Leads (.pollRead (rs ++ [r]) hrs') rest Q) : Leads (.pollRead rs hrs) (.line (.rd r) :: rest) Q :=
  .rd hr (fun _ reads s h => by
    change reads ++ _ = (rs ++ [r]).map _
    rw [show reads = rs.map (readReg · s) from h, List.map_append]
    rfl) hrest

theorem pollReceived_leads :
    Leads (.pollRead [] nofun) pollReceived
      (.pollRead [.pollStat, .pollCodeLo, .pollCodeHi, .pollTs] (by decide)) :=
  .cmd (P' := .pollRead [] nofun) (fun _ _ _ _ h _ => h) <|
    .rd_poll (hrs' := by decide) rfl <| .rd_poll (hrs' := by decide) rfl <| .rd_poll (hrs' := by decide) rfl <|
      .rd_poll (hrs' := by decide) rfl (.refl _)

/-- The result of `poll_received` from the images of the poll registers (R72, R130). -/
theorem pollResult_images (s : State) :
    pollResult ([Reg.pollStat, .pollCodeLo, .pollCodeHi, .pollTs].map (readReg · s)) =
      if s.poll.valid = true then some (s.poll.code, s.poll.ts) else none := by
  have hvalid : (readReg .pollStat s).getLsbD 0 = s.poll.valid := getLsbD_flag _ _
  have hcode : readReg .pollCodeHi s ++ readReg .pollCodeLo s = s.poll.code := codeHi_append_codeLo s.poll.code
  simp only [List.map_cons, List.map_nil, pollResult, hvalid, hcode]
  rfl

/-! ### `send_code` and `send_bits` -/

theorem Kept.and {φ ψ : State → Prop} (hφ : Kept φ) (hψ : Kept ψ) : Kept fun s => φ s ∧ ψ s :=
  fun s t hq ⟨h1, h2⟩ => ⟨hφ s t hq h1, hψ s t hq h2⟩

theorem Kept.imp {φ : State → Prop} (p : Prop) (hφ : Kept φ) : Kept fun s => p → φ s :=
  fun s t hq h hp => hφ s t hq (h hp)

theorem kept_inv : Kept State.Inv := fun _ _ hq h => hq.inv h

theorem kept_txCode (c : Code) : Kept fun s => s.txCode = c := fun _ _ hq h => hq.txCode.trans h

theorem kept_codeLo (w : Word) : Kept fun s => codeLo s.txCode = w := fun _ _ hq h =>
  (congrArg codeLo hq.txCode).trans h

theorem kept_notBusyIfRejected : Kept fun s => s.err ≠ .ok → s.busy = false := fun _ _ hq h herr =>
  hq.notBusy (h (hq.err ▸ herr))

/-- A state that meets the invariant with no send in progress. -/
def Idle (s : State) : Prop := s.Inv ∧ s.busy = false

theorem kept_idle : Kept Idle := kept_inv.and kept_notBusy

/-- A host write of a half of TX_CODE needs no lock and touches nothing else (R43). -/
theorem Idle.setTxCode {s : State} (h : Idle s) (c : Code) : Idle { s with txCode := c } :=
  ⟨h.1.of_unconstrained _ _ _ _ _, h.2⟩

/-- A command leaves an idle transmitter idle if it is rejected (R75). -/
theorem Idle.exec {i : Instr} {s t : State} (h : Idle s) (hexec : exec i s = .next t) :
    t.Inv ∧ (t.err ≠ .ok → t.busy = false) := by
  refine ⟨exec_inv h.1 hexec, fun herr => ?_⟩
  obtain ⟨hok, -⟩ | ⟨-, ht⟩ := exec_result hexec
  · exact absurd hok herr
  · rw [ht]
    exact h.2

theorem codeLo_setCodeLo (c : Code) (v : Word) : codeLo (setCodeLo c v) = v := codeLo_append _ _

/-- The high half, written over a low half that is already the code's, makes the code (R72, R78). -/
theorem setCodeHi_codeHi {x c : Code} (h : codeLo x = codeLo c) : setCodeHi x (codeHi c) = c :=
  (congrArg (codeHi c ++ ·) h).trans (codeHi_append_codeLo c)

/-- A send leaves its code and the code of ERR as its result; if it began idle (the hypothesis `p`) it ends idle: at once
where it was rejected, else with the read that shows BUSY = 0. -/
theorem sendAndWait_leads (i : Instr) (c : Code) (p : Prop) :
    Leads (.ofState _ (kept_idle.imp p)) (sendAndWait i c)
      (.withResult _ ((kept_txCode c).and (kept_idle.imp p))) :=
  .wr (P' := .ofState _ ((kept_codeLo (codeLo c)).and (kept_idle.imp p))) rfl
    (fun _ _ s t hidle hw => by
      cases hw
      exact ⟨codeLo_setCodeLo _ _, fun hp => (hidle hp).setTxCode _⟩) <|
  .wr (P' := .ofState _ ((kept_txCode c).and (kept_idle.imp p))) rfl
    (fun _ _ s t ⟨hlo, hidle⟩ hw => by
      cases hw
      exact ⟨setCodeHi_codeHi hlo, fun hp => (hidle hp).setTxCode _⟩) <|
  .cmd (P' := .ofState _ ((kept_txCode c).and ((kept_inv.and kept_notBusyIfRejected).imp p)))
    (fun _ _ s t ⟨hcode, hidle⟩ hexec => ⟨(exec_frame hexec).txCode.trans hcode, fun hp => (hidle hp).exec hexec⟩) <|
  .takeResultThenWait (P' := .withResult _ ((kept_txCode c).and (kept_inv.imp p)))
    (R := .withResult _ ((kept_txCode c).and (kept_idle.imp p)))
    (fun _ _ s ⟨hcode, h⟩ _ => ⟨rfl, hcode, fun hp => (h hp).1⟩)
    (.waitIdle (P' := .withResult _ ((kept_txCode c).and (kept_idle.imp p)))
      (fun _ _ s ⟨hres, hcode, hinv⟩ hb => ⟨hres, hcode, fun hp => ⟨hinv hp, hb⟩⟩) (.refl _))
    (fun _ _ s ⟨hcode, h⟩ herr => ⟨rfl, hcode, fun hp => ⟨(h hp).1, (h hp).2 herr⟩⟩) (.refl _)

/-- Settles O51: each operation's sequence leads to its claim, line by line. -/
theorem hostOperationsTakeTheirResults : Obligations.HostOperationsTakeTheirResults := by
  intro turns ops s t h hquiet hrun hdone
  have through {P Q : Claim} {ops' : List HostOp} (hops : ops = ops') (hlead : Leads P ops' Q)
      (hP : P.holds none [] s) : Q.holds h.result h.reads t :=
    hlead turns _ h s t hquiet hops hP hrun hdone
  refine ⟨fun g p o r b tol hops => ⟨fun htx hrx => ?_, fun hrole => ?_⟩, fun hops => ?_, fun hops => ?_,
    fun c hops => ?_, fun hops => ?_, fun hops => ?_, fun hops => ?_⟩
  · obtain ⟨hcfg, -⟩ := through hops (configure_leads_unlocked g p o r b tol s.cfg) ⟨rfl, htx, hrx⟩
    exact hcfg
  · obtain ⟨hcfg, -⟩ := through hops (configure_leads_locked g p o r b tol s.cfg hrole) ⟨rfl, rfl, rfl⟩
    exact hcfg
  · exact through hops enableTransmit_leads True.intro
  · exact through hops disableTransmit_leads True.intro
  · have sent (i : Instr) (hops : ops = sendAndWait i c) : h.result = some t.err.code ∧ t.txCode = c := by
      obtain ⟨hres, hcode, -⟩ := through hops (sendAndWait_leads i c False) False.elim
      exact ⟨hres, hcode⟩
    exact hops.elim (sent .sendCode) (sent .sendBits)
  · exact through hops enableReceive_leads True.intro
  · exact through hops disableReceive_leads True.intro
  · have hreads := through hops pollReceived_leads rfl
    exact (congrArg pollResult hreads).trans (pollResult_images t)

end Sys2Proof.Machine
end

section
/-! PROOFS. A send in progress counts down to its end, and `send_code` and `send_bits` come through (R72, R99, R102). -/

namespace Sys2Proof.Machine

/-! ### The microseconds a send still takes -/

/-- Counting a nonzero word down takes one from its value. -/
theorem toNat_sub_one {x : Word} (h : x ≠ 0#32) : (x - 1#32).toNat + 1 = x.toNat := by
  bv_omega

/-- Starting a segment takes its time from the queue; at the end none is left (R99). -/
theorem segmentBoundary_remaining {s : State} (h : (segmentBoundary s).busy = true) :
    (segmentBoundary s).eng.remaining = s.eng.remaining := by
  obtain ⟨hwait, hleft, ⟨g, gs, hq, he⟩ | ⟨-, he⟩⟩ | ⟨-, he⟩ := segmentBoundary_cases s <;> rw [he] at h ⊢
  · simp [Engine.remaining, totalDur, hwait, hleft, hq]
  · cases h

/-- A tick takes one microsecond from a send that it does not end (R99). -/
theorem tick_remaining {s t : State} (h : tick s = .next t) (hb : t.busy = true) :
    t.eng.remaining + 1 = s.eng.remaining := by
  obtain ⟨hidle, he⟩ | ⟨-, hwait, he⟩ | ⟨-, -, -, he⟩ | ⟨-, hwait, hleft, he⟩ := engineTick_cases (advanceNow s) <;>
    rw [tick, he] at h <;> cases h
  · cases hidle.symm.trans hb
  · have hcount := toNat_sub_one hwait
    rw [segmentBoundary_remaining hb]
    simp only [setEng_eng, advanceNow_eng, Engine.remaining] at hcount ⊢
    omega
  · have hcount := toNat_sub_one hleft
    rw [segmentBoundary_remaining hb]
    simp only [setEng_eng, advanceNow_eng, Engine.remaining] at hcount ⊢
    omega

/-- A send in progress has time left (R98). -/
theorem Engine.running.remaining_pos {e : Engine} (h : e.running) : 0 < e.remaining := by
  obtain ⟨hphase, -⟩ := h
  split at hphase
  · have hleft : e.segLeft.toNat ≠ 0 := fun h0 => hphase (BitVec.eq_of_toNat_eq h0)
    unfold Engine.remaining
    omega
  · rename_i hwait
    have hwait : e.txWait.toNat ≠ 0 := fun h0 => hwait (BitVec.eq_of_toNat_eq h0)
    unfold Engine.remaining
    omega

/-- A send takes TX_LAT and its waveform's microseconds (R96). -/
theorem txStart_remaining (segs : List Segment) (s : State) :
    (txStart segs s).eng.remaining = s.par.txLat.toNat + totalDur segs := by
  unfold txStart
  by_cases hlat : s.par.txLat = 0#32
  · cases segs <;> simp [hlat, Engine.remaining, totalDur]
  · simp [hlat, Engine.remaining]

/-! ### The turns after the command -/

/-- At least `n` microseconds of a send have passed, if it is still in progress. -/
def Elapsed (n : Nat) (s t : State) : Prop :=
  t.busy = true → s.busy = true ∧ t.eng.remaining + n ≤ s.eng.remaining

theorem Elapsed.zero {s t : State} (hb : t.busy = s.busy) (he : t.eng = s.eng) : Elapsed 0 s t := fun h =>
  ⟨hb ▸ h, by rw [he]; rfl⟩

theorem Elapsed.trans {n m : Nat} {s t u : State} (h1 : Elapsed n s t) (h2 : Elapsed m t u) : Elapsed (n + m) s u := by
  intro hu
  obtain ⟨ht, hle2⟩ := h2 hu
  obtain ⟨hs, hle1⟩ := h1 ht
  exact ⟨hs, by omega⟩

/-- More time cannot pass than a send still takes: it is over. -/
theorem Elapsed.notBusy {n : Nat} {s t : State} (h : Elapsed n s t) (hinv : t.Inv)
    (hn : s.busy = true → s.eng.remaining ≤ n) : t.busy = false := by
  by_contra hb
  have hb : t.busy = true := Bool.not_eq_false _ ▸ hb
  obtain ⟨hs, hle⟩ := h hb
  have hpos := (hinv.sending hb).remaining_pos
  have hsn := hn hs
  omega

/-- A quiet turn of another agent never stops the block, and a tick counts (R99, R105). -/
theorem perform_quiet_next {e : Event} (he : (Turn.other e).quiet = true) {s : State} (h : s.Inv) :
    ∃ t, perform e s = .next t ∧ Elapsed ([Turn.other e].count (.other .tick)) s t := by
  obtain ⟨t, ht, -⟩ := handle_inv (s := { s with busResp := none }) (h.of_unconstrained _ _ _ _ _) e
  refine ⟨t, ht, ?_⟩
  cases e with
  | tick =>
    intro hb
    refine ⟨?_, (tick_remaining ht hb).le⟩
    by_contra hs
    cases (tick_notBusy ht (Bool.not_eq_true _ ▸ hs)).symm.trans hb
  | pad level =>
    rw [padChange_frame ht]
    exact .zero rfl rfl
  | access a => cases he
  | reset => cases he

/-- A program that is through, or has only a `wait_idle` to do. -/
def OnlyWaits (h : ProgramRun) : Prop := h.todo = [] ∨ h.todo = [.line .waitIdle]

theorem passed_onlyWaits {h : ProgramRun} (hw : OnlyWaits h) (e : Event) : h.passed e = h := by
  obtain he | ⟨n, rest, htodo, -⟩ := passed_eq_self_or e h
  · exact he
  · obtain hw | hw := hw <;> cases hw.symm.trans htodo

/-- A turn of such a program is at most a read; it is through where that read shows BUSY = 0 (R72). -/
theorem programTurn_onlyWaits {h : ProgramRun} (hw : OnlyWaits h) (s : State) :
    ∃ g b, programTurn h s = .next (g, { s with busResp := b }) ∧ OnlyWaits g ∧ (s.busy = false → g.todo = []) := by
  obtain htodo | htodo := hw
  · refine ⟨h, s.busResp, ?_, .inl htodo, fun _ => htodo⟩
    rw [programTurn, htodo]
  · refine ⟨_, _, programTurn_waitIdle htodo s, ?_, fun hb => by simp [hb]⟩
    by_cases hb : s.busy = true
    · exact .inr ((if_pos hb).trans htodo)
    · exact .inl (if_neg hb)

theorem takeTurn_onlyWaits {w : Turn} (hquiet : w.quiet = true) {h : ProgramRun} (hw : OnlyWaits h) {s : State}
    (hs : s.Inv) :
    ∃ g t, takeTurn w h s = .next (g, t) ∧ OnlyWaits g ∧ t.Inv ∧ Elapsed ([w].count (.other .tick)) s t := by
  cases w with
  | program =>
    obtain ⟨g, b, hturn, hg, -⟩ := programTurn_onlyWaits hw s
    exact ⟨g, _, hturn, hg, hs.of_unconstrained _ _ _ _ _, .zero rfl rfl⟩
  | other e =>
    obtain ⟨t, ht, helapsed⟩ := perform_quiet_next hquiet hs
    refine ⟨h, t, ?_, hw, perform_inv ht hs, helapsed⟩
    rw [takeTurn, ht, andThen_next, passed_onlyWaits hw]

/-- Any quiet turns of a program that only waits go on, and their ticks count. -/
theorem runTurns_onlyWaits {ws : List Turn} (hquiet : ∀ w ∈ ws, w.quiet = true) {h : ProgramRun} (hw : OnlyWaits h)
    {s : State} (hs : s.Inv) :
    ∃ g t, runTurns ws h s = .next (g, t) ∧ OnlyWaits g ∧ t.Inv ∧ Elapsed (ws.count (.other .tick)) s t := by
  induction ws generalizing h s with
  | nil => exact ⟨h, s, rfl, hw, hs, .zero rfl rfl⟩
  | cons w ws ih =>
    obtain ⟨hq, hqs⟩ := List.forall_mem_cons.1 hquiet
    obtain ⟨h', s', hturn, hw', hs', h1⟩ := takeTurn_onlyWaits hq hw hs
    obtain ⟨g, t, hrun, hg, ht, h2⟩ := ih hqs hw' hs'
    refine ⟨g, t, ?_, hg, ht, ?_⟩
    · rw [runTurns, hturn, andThen_next, hrun]
    · rw [← List.singleton_append, List.count_append]
      exact h1.trans h2

/-! ### The four turns of a send -/

/-- A program's turn comes first in the run of its next turns. -/
theorem runTurns_program_cons {n : Nat} {h g : ProgramRun} {s t : State} (hturn : programTurn h s = .next (g, t)) :
    runTurns (List.replicate (n + 1) .program) h s = runTurns (List.replicate n .program) g t := by
  rw [List.replicate_succ, runTurns, takeTurn, hturn, andThen_next]

theorem runTurns_wr {n : Nat} {h : ProgramRun} {r : Reg} {v : Word} {rest : List HostOp} {s t : State}
    (hr : r.wf = true) (htodo : h.todo = .line (.wr r v) :: rest)
    (hw : regWrite r.offset v { s with busResp := some .written } = .next t) :
    runTurns (List.replicate (n + 1) .program) h s =
      runTurns (List.replicate n .program) { h with todo := rest, trace := h.trace ++ [writeAccess r v] } t :=
  runTurns_program_cons (by rw [programTurn_wr hr htodo, hw, andThen_next])

theorem runTurns_cmd {n : Nat} {h : ProgramRun} {i : Instr} {rest : List HostOp} {s t : State}
    (htodo : h.todo = .line (.cmd i) :: rest) (hexec : exec i { s with busResp := some .written } = .next t) :
    runTurns (List.replicate (n + 1) .program) h s =
      runTurns (List.replicate n .program)
        { h with todo := rest, trace := h.trace ++ [commandWrite (encode i)] } t :=
  runTurns_program_cons (by rw [programTurn_cmd htodo, hexec, andThen_next])

/-- The first four turns of a send with no other agent's between: both halves of TX_CODE, the command, and the read of its
result (R72). -/
theorem sendAndWait_four_turns (i : Instr) (c : Code) (s : State) :
    ∃ u h, exec i { s with txCode := c, busResp := some .written } = .next u ∧
      runTurns (List.replicate 4 .program) (.start (sendAndWait i c)) s =
        .next (h, { u with busResp := some (.data (statusImage u)) }) ∧
      h.todo = if u.err = .ok then [.line .waitIdle] else [] := by
  obtain ⟨u, hu⟩ := exec_next i { s with txCode := c, busResp := some .written }
  have hexec : exec i
      { s with txCode := setCodeHi (setCodeLo s.txCode (codeLo c)) (codeHi c), busResp := some .written } = .next u := by
    rw [setCodeHi_codeHi (codeLo_setCodeLo _ _), hu]
  refine ⟨u, _, hu, (runTurns_wr (r := .txCodeLo) rfl rfl rfl).trans <|
    (runTurns_wr (r := .txCodeHi) rfl rfl rfl).trans <| (runTurns_cmd rfl hexec).trans <|
      runTurns_program_cons (programTurn_takeResult rfl u), ?_⟩
  simp only [true_and]

/-- The pattern of the two sends (R92, R95). -/
def sendPattern (i : Instr) (cfg : Cfg) (c : Code) : List Bool :=
  if i = .sendCode then sendCodePattern cfg c else codeBits cfg.bitLength.toNat c

/-- A command that finds the transmitter idle and leaves it busy is a send that has all its time ahead (R96). -/
theorem exec_send_remaining {i : Instr} (hi : i = .sendCode ∨ i = .sendBits) {s u : State} {r : ProtoRow}
    (hb : s.busy = false) (hr : lookup s.par.ptab s.cfg.proto = some r) (hexec : exec i s = .next u)
    (hu : u.busy = true) :
    u.eng.remaining = s.par.txLat.toNat + totalDur (sendSegments s r (sendPattern i s.cfg s.txCode)) := by
  obtain ⟨-, -, v, hv, rfl⟩ | ⟨-, hrejected⟩ := exec_result hexec
  · have hstart : ∃ w, startSend w (sendPattern i s.cfg s.txCode) s = .ok v := by
      obtain rfl | rfl := hi <;> exact ⟨_, hv⟩
    obtain ⟨w, hw⟩ := hstart
    obtain ⟨-, -, r', hr', rfl⟩ := startSend_ok hw
    cases hr.symm.trans hr'
    exact txStart_remaining _ s
  · rw [hrejected] at hu
    cases hb.symm.trans hu

/-- Once as many ticks have come as the waveform has microseconds, the next read lets the program through (R72, R102). -/
theorem sendAndWait_through {i : Instr} (hi : i = .sendCode ∨ i = .sendBits) {c : Code} {s : State} (hs : Idle s)
    {r : ProtoRow} (hr : lookup s.par.ptab s.cfg.proto = some r) {mid : List Turn} (hquiet : ∀ w ∈ mid, w.quiet = true)
    (hticks : s.par.txLat.toNat + totalDur (sendSegments s r (sendPattern i s.cfg c)) ≤ mid.count (.other .tick)) :
    ∃ h t, runTurns (List.replicate 4 .program ++ mid ++ [.program]) (.start (sendAndWait i c)) s = .next (h, t) ∧
      h.todo = [] := by
  obtain ⟨u, h, hexec, hfour, htodo⟩ := sendAndWait_four_turns i c s
  have hwaits : OnlyWaits h := by
    by_cases herr : u.err = .ok
    · exact .inr (htodo.trans (if_pos herr))
    · exact .inl (htodo.trans (if_neg herr))
  have hinv : u.Inv := exec_inv (hs.1.of_unconstrained _ _ _ _ _) hexec
  obtain ⟨g, t, hmid, hg, ht, helapsed⟩ := runTurns_onlyWaits hquiet hwaits
    (s := { u with busResp := some (.data (statusImage u)) }) (hinv.of_unconstrained _ _ _ _ _)
  have htotal := exec_send_remaining (s := { s with txCode := c, busResp := some .written }) hi hs.2 hr hexec
  have hidle : t.busy = false := helapsed.notBusy ht fun hu => (htotal hu).le.trans hticks
  obtain ⟨g', b, hlast, -, hdone⟩ := programTurn_onlyWaits hg t
  refine ⟨g', { t with busResp := b }, ?_, hdone hidle⟩
  rw [runTurns_append, runTurns_append, hfour, andThen_next, hmid, andThen_next, runTurns, takeTurn, hlast]
  rfl

/-- Settles O25: the claim of `sendAndWait_leads`, the four turns of a send, and the count-down of its microseconds. -/
theorem sendCodeOperationWaitsForEnd : Obligations.SendCodeOperationWaitsForEnd := by
  intro i c s hi hinv hb
  refine ⟨fun turns h t hquiet hrun hdone => ?_, fun h t hrun herr => ?_, fun r mid hr hquiet hticks =>
    sendAndWait_through hi ⟨hinv, hb⟩ hr hquiet hticks⟩
  · obtain ⟨hres, hcode, hidle⟩ :=
      sendAndWait_leads i c True turns _ h s t hquiet rfl (fun _ => ⟨hinv, hb⟩) hrun hdone
    obtain ⟨hinv', hb'⟩ := hidle True.intro
    exact ⟨hb', (hinv'.notSending hb').2, hcode, hres⟩
  · obtain ⟨u, g, -, hfour, htodo⟩ := sendAndWait_four_turns i c s
    cases hfour.symm.trans hrun
    exact htodo.trans (if_neg herr)

end Sys2Proof.Machine
end

section
/-! PROOFS. The command unit: the order of its checks, its result in ERR, and what each command changes (R74-R76). -/

namespace Sys2Proof.Machine

/-! ### NOP -/

theorem exec_nop_idle {s : State} (h : s.busy = false) : exec .nop s = .next (setErr .ok s) := runCommand_ok h rfl

/-- While BUSY every command only writes ERR = BUSY (R74). -/
theorem exec_busy (i : Instr) {s : State} (h : s.busy = true) : exec i s = .next (setErr .busy s) := by
  rw [exec_eq_commandBody, runCommand_busy h]

/-- Settles O8: the low bits of STATUS 0x301 say that only transmit is enabled and no send is in progress. -/
theorem nopRule : Obligations.NopRule := by
  refine ⟨decode_encode .nop, fun s => exec_nop_idle, fun s => exec_busy .nop, fun s hstatus => ?_⟩
  change statusImage s = 0x301#32 at hstatus
  have htx : s.txEn = true := by rw [← statusImage_txEn, hstatus]; rfl
  have hrx : s.rxEn = false := by rw [← statusImage_rxEn, hstatus]; rfl
  have hbusy : s.busy = false := by rw [← statusImage_busy, hstatus]; rfl
  have hmb : s.mb.valid = false := by rw [← statusImage_mbValid, hstatus]; rfl
  refine ⟨_, exec_nop_idle hbusy, ?_⟩
  change statusImage (setErr .ok s) = 0x001#32
  simp [statusImage, htx, hrx, hbusy, hmb, ErrCode.code]

/-! ### The order of the checks -/

theorem enableTxBody_error {s : State} {c : ErrCode} (h : enableTxBody s = .error c) : c = .roleConflict := by
  unfold enableTxBody at h
  split at h
  · cases h; rfl
  · split at h <;> cases h

theorem startSend_error {w : Nat} {pat : List Bool} {s : State} {c : ErrCode} (h : startSend w pat s = .error c) :
    c = .notEnabled ∨ c = .invalidProtocol ∨ c = .invalidConfig ∨ c = .codeRange := by
  obtain ⟨-, he⟩ | ⟨-, -, he⟩ | ⟨-, r, -, ⟨-, he⟩ | ⟨-, -, -, -, he⟩ | ⟨-, -, -, -, he⟩⟩ := startSend_cases w pat s <;>
    rw [he] at h <;> cases h <;> decide

theorem enableRxBody_error {s : State} {c : ErrCode} (h : enableRxBody s = .error c) :
    c = .roleConflict ∨ c = .invalidProtocol ∨ c = .invalidConfig := by
  unfold enableRxBody at h
  split at h
  · cases h; exact .inl rfl
  · split at h
    · cases h
    · split at h
      · cases h; exact .inr (.inl rfl)
      · split at h <;> cases h
        exact .inr (.inr rfl)

theorem disableTxBody_ne_error (s : State) (c : ErrCode) : disableTxBody s ≠ .error c := by
  unfold disableTxBody
  split <;> nofun

theorem disableRxBody_ne_error (s : State) (c : ErrCode) : disableRxBody s ≠ .error c := by
  unfold disableRxBody
  split <;> nofun

/-- No command raises BUSY or ILLEGAL_CMD by a rule of its own (R74). -/
theorem commandBody_error_own {i : Instr} {s : State} {c : ErrCode} (h : commandBody i s = .error c) :
    c ≠ .busy ∧ c ≠ .illegalCmd := by
  cases i with
  | nop | poll => cases h
  | enableTx =>
    rw [enableTxBody_error h]
    decide
  | disableTx => exact absurd h (disableTxBody_ne_error s c)
  | sendCode | sendBits => obtain rfl | rfl | rfl | rfl := startSend_error h <;> decide
  | enableRx => obtain rfl | rfl | rfl := enableRxBody_error h <;> decide
  | disableRx => exact absurd h (disableRxBody_ne_error s c)

/-- While no send is in progress the result of a command is OK or an error of its own rule (R74). -/
theorem exec_err_own {i : Instr} {s t : State} (h : exec i s = .next t) (hb : s.busy = false) :
    t.err ≠ .busy ∧ t.err ≠ .illegalCmd := by
  rw [exec_eq_commandBody] at h
  obtain ⟨hbusy, -⟩ | ⟨-, c, hc, rfl⟩ | ⟨-, u, -, rfl⟩ := runCommand_cases h
  · cases hb.symm.trans hbusy
  · exact commandBody_error_own hc
  · exact ⟨nofun, nofun⟩

/-- A rejected command changes ERR only (R75). -/
theorem exec_rejected {i : Instr} {s t : State} (h : exec i s = .next t) (herr : t.err ≠ .ok) : t = setErr t.err s := by
  obtain ⟨hok, -⟩ | ⟨-, ht⟩ := exec_result h
  · exact absurd hok herr
  · exact ht

/-- Settles O6: the decoder's answer, then BUSY, then the result of the command's own body. -/
theorem commandChecksInOrder : Obligations.CommandChecksInOrder := by
  obtain ⟨-, hillegal, -⟩ := illegalWordOnlySetsErr
  refine fun v s => ⟨rfl, hillegal v s, fun i hd => ?_⟩
  rw [command_eq_exec hd]
  refine ⟨exec_busy i, fun hb => ⟨rfl, ?_⟩⟩
  obtain ⟨t, ht⟩ := exec_next i s
  obtain ⟨hbusy, hword⟩ := exec_err_own ht hb
  exact ⟨t, ht, hbusy, hword, exec_rejected ht⟩

/-! ### ERR

No check of a command reads ERR. So `setErr` goes through each check into its branches (`apply_ite`), where it meets the
same effect. -/

theorem txStart_setErr (segs : List Segment) (e : ErrCode) (s : State) :
    txStart segs (setErr e s) = setErr e (txStart segs s) := by
  cases segs <;> simp only [txStart, apply_ite (setErr e)] <;> rfl

theorem startSend_setErr (w : Nat) (pat : List Bool) (e : ErrCode) (s : State) :
    startSend w pat (setErr e s) = (startSend w pat s).map (setErr e) := by
  have hsegs (r : ProtoRow) : sendSegments (setErr e s) r pat = sendSegments s r pat := rfl
  cases hr : lookup s.par.ptab s.cfg.proto <;>
    simp only [startSend, setErr_par, setErr_cfg, hr, hsegs, txStart_setErr, apply_ite (Except.map (setErr e))] <;> rfl

theorem enableRxBody_setErr (e : ErrCode) (s : State) :
    enableRxBody (setErr e s) = (enableRxBody s).map (setErr e) := by
  cases hr : lookup s.par.ptab s.cfg.proto <;>
    simp only [enableRxBody, setErr_par, setErr_cfg, hr, apply_ite (Except.map (setErr e))] <;> rfl

/-- The old ERR takes no part in a command's effect (R75). -/
theorem commandBody_setErr (i : Instr) (e : ErrCode) (s : State) :
    commandBody i (setErr e s) = (commandBody i s).map (setErr e) := by
  cases i with
  | nop | poll => rfl
  | enableTx | disableTx | disableRx =>
    simp only [commandBody, enableTxBody, disableTxBody, disableRxBody, apply_ite (Except.map (setErr e))]
    rfl
  | sendCode | sendBits => exact startSend_setErr _ _ e s
  | enableRx => exact enableRxBody_setErr e s

/-- A command's next state does not depend on the old ERR (R75). -/
theorem exec_setErr (i : Instr) (e : ErrCode) (s : State) : exec i (setErr e s) = exec i s := by
  simp only [exec_eq_commandBody, runCommand, setErr_busy, commandBody_setErr]
  cases commandBody i s <;> rfl

theorem command_setErr (v : Word) (e : ErrCode) (s : State) : command v (setErr e s) = command v s := by
  unfold command
  split
  · exact exec_setErr _ e s
  · rfl

/-- A rejected word, illegal or not, changes ERR only (R69, R75). -/
theorem command_rejected {v : Word} {s t : State} (h : command v s = .next t) (herr : t.err ≠ .ok) :
    t = setErr t.err s := by
  obtain ⟨-, hc⟩ | ⟨i, -, hc⟩ := command_cases v s <;> rw [hc] at h
  · cases h; rfl
  · exact exec_rejected h herr

/-- A register write elsewhere than at CMD leaves ERR (R75). -/
theorem regWrite_err {off : Nat} {v : Word} {s t : State} (h : regWrite off v s = .next t) (hoff : off ≠ 0x020) :
    t.err = s.err := by
  obtain ⟨hcmd, -⟩ | ⟨c, hw⟩ | ⟨r, -, hw⟩ | ⟨-, hw⟩ := regWrite_cases off v s
  · obtain ⟨-, rfl⟩ := regAt_eq_some hcmd
    exact absurd rfl hoff
  · cases hw.symm.trans h; rfl
  · cases hw.symm.trans h
    obtain hl | ⟨-, -, hl⟩ := lockedWrite_cases r v s <;> rw [hl]
  · cases hw.symm.trans h; rfl

/-- An access that writes no command leaves ERR (R75). -/
theorem access_err {a : Access} {s t : State} (h : access a s = .next t)
    (hcmd : isCommandWrite s.par (.access a) = false) : t.err = s.err := by
  obtain ⟨off, v, hk, ht, ha, he⟩ | ⟨r, he⟩ := access_cases a s <;> rw [he] at h
  · have hoff : off ≠ 0x020 := by simpa [isCommandWrite, admittedWrite_eq_some hk ht ha] using hcmd
    exact regWrite_err (s := respond .written s) h hoff
  · cases h; rfl

/-- An event that is neither a command nor reset leaves ERR (R75). -/
theorem handle_err {e : Event} {s t : State} (h : handle e s = .next t) (hcmd : isCommandWrite s.par e = false)
    (hreset : e ≠ .reset) : t.err = s.err := by
  cases e with
  | access a => exact access_err h hcmd
  | pad level => rw [padChange_frame h]
  | tick => rw [tick_frame h]
  | reset => exact absurd rfl hreset

/-- Settles O7: a word's result is independent of the old ERR, and every other event leaves ERR. -/
theorem errHoldsLastCommandResult : Obligations.ErrHoldsLastCommandResult := by
  refine ⟨fun v s => ?_, fun s t h => ?_, statusImage_err⟩
  · obtain ⟨t, ht⟩ := command_next v s
    exact ⟨t, ht, command_rejected ht, fun e => (command_setErr v e s).trans ht⟩
  · rw [step_eq_handle] at h
    exact handle_err (s := s.take s.inputs.tail) h

/-! ### What the host reads after a command -/

section
variable {i : Instr} {s t : State}

/-- A property of the state that every accepted effect keeps and ERR takes no part in, a command keeps. -/
theorem exec_keeps {α : Type} {f : State → α} (h : exec i s = .next t)
    (hbody : ∀ u, commandBody i s = .ok u → f u = f s) (herr : ∀ c u, f (setErr c u) = f u) : f t = f s := by
  rw [exec_eq_commandBody] at h
  exact runCommand_elim (P := fun u => f u = f s) h rfl (fun u _ hu => hbody u hu) fun c u hu => (herr c u).trans hu

theorem commandBody_pin (h : commandBody i s = .ok t) (hi : changedBy i .pinStat = false) : t.pin = s.pin := by
  cases i with
  | enableTx | disableTx | sendCode | sendBits => cases hi
  | nop | poll => cases h; rfl
  | enableRx => obtain ⟨-, rfl | ⟨-, -, rfl⟩⟩ := enableRxBody_ok h <;> rfl
  | disableRx => obtain rfl | rfl := disableRxBody_ok h <;> rfl

theorem commandBody_cap (h : commandBody i s = .ok t) (hi : changedBy i .rxCount = false) : t.cap = s.cap := by
  cases i with
  | enableRx | disableRx => cases hi
  | nop | poll => cases h; rfl
  | enableTx => obtain ⟨-, rfl | rfl⟩ := enableTxBody_ok h <;> rfl
  | disableTx => obtain rfl | rfl := disableTxBody_ok h <;> rfl
  | sendCode | sendBits =>
    obtain ⟨-, -, r, -, rfl⟩ := startSend_ok h
    rw [txStart_frame]

/-- The pin changes only where PIN_STAT may (R90, R91, R94, R95). -/
theorem exec_pin (h : exec i s = .next t) (hi : changedBy i .pinStat = false) : t.pin = s.pin :=
  exec_keeps h (fun _ hu => commandBody_pin hu hi) fun _ _ => rfl

/-- The capture state changes only where its registers may (R103, R104). -/
theorem exec_cap (h : exec i s = .next t) (hi : changedBy i .rxCount = false) : t.cap = s.cap :=
  exec_keeps h (fun _ hu => commandBody_cap hu hi) fun _ _ => rfl

/-- The poll result changes only where its registers may (R126). -/
theorem exec_poll (h : exec i s = .next t) (hi : changedBy i .pollStat = false) : t.poll = s.poll := by
  obtain hp | rfl := (exec_frame h).poll
  · exact hp
  · cases hi

/-- The registers of the poll result change together (R126). -/
theorem changedBy_of_showsPoll {r : Reg} (hr : r.showsPoll = true) (i : Instr) :
    changedBy i r = changedBy i .pollStat := by
  cases r with
  | pollStat | pollCodeLo | pollCodeHi | pollTs => cases i <;> rfl
  | _ => cases hr

/-- The registers of the capture state (R45, R46). -/
def Reg.showsCapture : Reg → Bool
  | .rxCount | .rxSyncs | .rxLastTs | .capbuf _ => true
  | _ => false

/-- The registers of the capture state change together (R103, R104). -/
theorem changedBy_of_showsCapture {r : Reg} (hr : r.showsCapture = true) (i : Instr) :
    changedBy i r = changedBy i .rxCount := by
  cases r with
  | rxCount | rxSyncs | rxLastTs | capbuf k => cases i <;> rfl
  | _ => cases hr

/-- A register that is not the command's own shows what the command leaves (R76-R126). -/
theorem readReg_exec (h : exec i s = .next t) {r : Reg} (hr : changedBy i r = false) : readReg r t = readReg r s := by
  have hf := exec_frame h
  cases r with
  | cfgProto | cfgPulse | cfgRepeat | cfgBitlen | cfgTol | cfgGpio | cfgFilter => simp only [readReg, hf.cfg]
  | cmd => rfl
  | status => cases i <;> cases hr
  | txCodeLo | txCodeHi => simp only [readReg, hf.txCode]
  | pollCodeLo | pollCodeHi | pollTs | pollStat =>
    rw [changedBy_of_showsPoll rfl] at hr
    exact readReg_of_showsPoll rfl (exec_poll h hr)
  | now => exact hf.now
  | rxCount | rxSyncs | rxLastTs | capbuf k =>
    rw [changedBy_of_showsCapture rfl] at hr
    simp only [readReg, exec_cap h hr]
  | pinStat => simp only [readReg, exec_pin h hr]
  | ptab p f => simp only [readReg, hf.par]
end

/-- Settles O16: each register shows a part of the state that its command leaves. -/
theorem commandsChangeOnlyTheirRegisters : Obligations.CommandsChangeOnlyTheirRegisters := by
  intro i s
  obtain ⟨t, ht⟩ := exec_next i s
  refine ⟨t, ht, fun off hoff => ?_⟩
  cases hr : regAt off with
  | none => rw [regRead_of_none hr, regRead_of_none hr]
  | some r =>
    simp only [regRead, hr]
    exact readReg_exec ht (hoff r hr)

end Sys2Proof.Machine
end

section
/-! PROOFS. What a configuration register reads after a write (R34-R40, R77). -/

namespace Sys2Proof.Machine

/-- The low n bits of a word, zero-extended, are the word under the mask of n ones. -/
theorem setWidth_field_eq_and_mask {w n : Nat} (h : n ≤ w) (v : BitVec w) :
    (v.extractLsb' 0 n).setWidth w = v &&& BitVec.ofNat w (2 ^ n - 1) := by
  have hmask : 2 ^ n - 1 < 2 ^ w :=
    Nat.lt_of_lt_of_le (Nat.sub_lt (Nat.two_pow_pos n) Nat.one_pos) (Nat.pow_le_pow_right Nat.two_pos h)
  refine BitVec.eq_of_toNat_eq ?_
  rw [BitVec.toNat_setWidth_of_le h, BitVec.toNat_and, BitVec.toNat_ofNat, Nat.mod_eq_of_lt hmask,
    Nat.and_two_pow_sub_one_eq_mod]
  rfl

/-- CFG_FILTER shows the low nine bits of the word written: MIN_TRANS, and REJECT_ZERO above it (R40). -/
theorem filter_image (v : Word) :
    0#23 ++ BitVec.ofBool (v.getLsbD 8) ++ v.extractLsb' 0 8 = (v.extractLsb' 0 9).setWidth 32 := by
  have hflag : BitVec.ofBool (v.getLsbD 8) = v.extractLsb' 8 1 := by
    refine BitVec.eq_of_getLsbD_eq fun i hi => ?_
    obtain rfl : i = 0 := by omega
    simp
  have hjoin : v.extractLsb' 8 1 ++ v.extractLsb' 0 8 = v.extractLsb' 0 9 :=
    BitVec.extractLsb'_append_extractLsb'_eq_extractLsb' rfl
  rw [hflag, BitVec.append_assoc, hjoin, BitVec.setWidth_eq_append (by decide)]

/-- With both roles disabled a write of a configuration register stores its field (R77). -/
theorem regWrite_unlocked {r : Reg} (hr : r.wf = true) (hoff : r.offset < 0x020) {s : State} (htx : s.txEn = false)
    (hrx : s.rxEn = false) (v : Word) : regWrite r.offset v s = .next { s with cfg := writeCfg r v s.cfg } := by
  rw [regWrite_config (regAt_offset hr) hoff, lockedWrite_unlocked htx hrx]

/-- Settles O45: the lock first, then each register's field as it is stored and read. -/
theorem configurationReadsBack : Obligations.ConfigurationReadsBack := by
  refine fun v s => ⟨fun hrole off hoff => regWrite_locked (by omega) hrole v, fun htx hrx => ?_⟩
  have store {r : Reg} (hr : r.wf = true) (hoff : r.offset < 0x020) := regWrite_unlocked hr hoff htx hrx v
  have mask {n : Nat} (h : n ≤ 32) := setWidth_field_eq_and_mask h v
  exact ⟨⟨_, store (r := .cfgProto) rfl (by decide), rfl, mask (n := 3) (by decide)⟩,
    ⟨_, store (r := .cfgPulse) rfl (by decide), rfl, mask (n := 16) (by decide)⟩,
    ⟨_, store (r := .cfgRepeat) rfl (by decide), rfl, mask (n := 16) (by decide)⟩,
    ⟨_, store (r := .cfgBitlen) rfl (by decide), rfl, mask (n := 7) (by decide)⟩,
    ⟨_, store (r := .cfgTol) rfl (by decide), rfl, mask (n := 7) (by decide)⟩,
    ⟨_, store (r := .cfgGpio) rfl (by decide), rfl, mask (n := 8) (by decide)⟩,
    ⟨_, store (r := .cfgFilter) rfl (by decide), rfl, (filter_image v).trans (mask (n := 9) (by decide))⟩⟩

end Sys2Proof.Machine
end

section
/-! PROOFS. The transmit unit and the duration of a multiplier (R85). -/

namespace Sys2Proof.Machine

/-- An override replaces the row's unit (R85). -/
theorem txUnit_of_override {c : Cfg} (h : c.pulseOverride ≠ 0#16) (r : ProtoRow) : txUnit c r = c.pulseOverride.toNat :=
  if_pos h

/-- Without an override the unit is the row's (R85). -/
theorem txUnit_of_no_override {c : Cfg} (h : c.pulseOverride = 0#16) (r : ProtoRow) : txUnit c r = r.pulseUnitUs.toNat :=
  if_neg (not_not_intro h)

/-- The longest segment is 255 × 65535 × 3 microseconds, which is below 2^26 (R85). -/
theorem segment_micros_lt (m : BitVec 8) {u : Nat} (hu : u ≤ 65535) : m.toNat * u * 3 < 2 ^ 26 := by
  have hm : m.toNat ≤ 255 := Nat.le_of_lt_succ m.isLt
  calc m.toNat * u * 3 ≤ 255 * 65535 * 3 := Nat.mul_le_mul_right 3 (Nat.mul_le_mul hm hu)
    _ < 2 ^ 26 := by decide

/-- The 32-bit counter holds the whole product (R85). -/
theorem waveSegment_dur_toNat (level : Bool) (m : BitVec 8) {u : Nat} (hu : u ≤ 65535) :
    (waveSegment level m u).dur.toNat = m.toNat * u * 3 := by
  have hfits : m.toNat * u * 3 < 2 ^ 32 := (segment_micros_lt m hu).trans (by decide)
  exact (BitVec.toNat_ofNat _ _).trans (Nat.mod_eq_of_lt hfits)

/-- Settles O17: the unit is a 16-bit value either way, and no product with an 8-bit multiplier overflows the counter. -/
theorem transmitDurationsAreExact : Obligations.TransmitDurationsAreExact :=
  ⟨fun _ r h => txUnit_of_override h r, fun _ r h => txUnit_of_no_override h r,
    fun c r => Nat.le_of_lt_succ (txUnit_lt c r),
    fun level m _ hu => ⟨rfl, waveSegment_dur_toNat level m hu, segment_micros_lt m hu⟩⟩

end Sys2Proof.Machine
end

section
/-! PROOFS. The engine as a list of segments that each tick shortens by a microsecond, and the waveform that an accepted
send puts on the pad (R96, R99-R101). -/

namespace Sys2Proof.Machine

/-! ### What is left of a list of segments after some microseconds -/

@[simp] theorem totalDur_nil : totalDur [] = 0 := rfl

@[simp] theorem totalDur_cons (g : Segment) (gs : List Segment) : totalDur (g :: gs) = g.dur.toNat + totalDur gs :=
  List.sum_cons

/-- A segment of no duration is never seen (R100). -/
@[simp] theorem levelAt_cons_empty (b : Bool) (gs : List Segment) (k : Nat) :
    levelAt ({ level := b, dur := 0#32 } :: gs) k = levelAt gs k := by
  simp [levelAt]

/-- A segment with time left is what is seen first (R100). -/
theorem levelAt_cons_zero {d : Word} (hd : d ≠ 0#32) (b : Bool) (gs : List Segment) :
    levelAt ({ level := b, dur := d } :: gs) 0 = b :=
  if_pos (Nat.pos_of_ne_zero fun h0 => hd (BitVec.eq_of_toNat_eq h0))

/-- `ys` is what is left of `xs` once `n` microseconds have passed. -/
structure LeftAfter (n : Nat) (xs ys : List Segment) : Prop where
  level : ∀ k, levelAt ys k = levelAt xs (n + k)
  dur : totalDur ys = totalDur xs - n

theorem LeftAfter.refl (xs : List Segment) : LeftAfter 0 xs xs := ⟨fun k => by rw [Nat.zero_add], rfl⟩

theorem LeftAfter.trans {n m : Nat} {xs ys zs : List Segment} (h1 : LeftAfter n xs ys) (h2 : LeftAfter m ys zs) :
    LeftAfter (n + m) xs zs where
  level k := by rw [h2.level, h1.level, Nat.add_assoc]
  dur := by rw [h2.dur, h1.dur, Nat.sub_sub]

theorem LeftAfter.cons_empty {n : Nat} {xs ys : List Segment} (h : LeftAfter n xs ys) (b c : Bool) :
    LeftAfter n ({ level := b, dur := 0#32 } :: xs) ({ level := c, dur := 0#32 } :: ys) where
  level k := by simpa using h.level k
  dur := by simpa using h.dur

/-- Counting the first segment down takes one microsecond away. -/
theorem leftAfter_countDown {d : Word} (hd : d ≠ 0#32) (b : Bool) (gs : List Segment) :
    LeftAfter 1 ({ level := b, dur := d } :: gs) ({ level := b, dur := d - 1#32 } :: gs) := by
  have hcount := toNat_sub_one hd
  refine ⟨fun k => ?_, by simp only [totalDur_cons]; omega⟩
  have hbefore : k < (d - 1#32).toNat ↔ 1 + k < d.toNat := by omega
  have hafter : k - (d - 1#32).toNat = 1 + k - d.toNat := by omega
  simp only [levelAt, hbefore, hafter]

/-! ### The engine as a list of segments -/

/-- What the pad is still to show: low for the wait, the segment on the pin, the queue. -/
def State.ahead (s : State) : List Segment :=
  { level := false, dur := s.eng.txWait } :: { level := s.pin.out, dur := s.eng.segLeft } :: s.eng.txq

theorem totalDur_ahead (s : State) : totalDur s.ahead = s.eng.remaining := by
  simp [State.ahead, Engine.remaining, Nat.add_assoc]

/-- A boundary takes no time: the next segment stands for itself, and after the last one the pad is low (R99). -/
theorem segmentBoundary_ahead (s : State) : LeftAfter 0 s.ahead (segmentBoundary s).ahead := by
  obtain ⟨hwait, hleft, ⟨g, gs, hq, he⟩ | ⟨hq, he⟩⟩ | ⟨-, he⟩ := segmentBoundary_cases s <;> rw [he]
  · simp only [State.ahead, startSegment_eng, startSegment_pin, hwait, hleft, hq]
    exact ⟨by simp, by simp⟩
  · simp only [State.ahead, endSend_eng, endSend_pin, hwait, hleft, hq]
    exact ((LeftAfter.refl []).cons_empty _ _).cons_empty _ _
  · exact .refl _

/-- A tick takes one microsecond from what is ahead; an idle engine has nothing ahead (R99). -/
theorem tick_ahead {s t : State} (hs : s.Inv) (h : tick s = .next t) : LeftAfter 1 s.ahead t.ahead := by
  obtain ⟨hb, he⟩ | ⟨-, hwait, he⟩ | ⟨-, -, -, he⟩ | ⟨-, hwait, hleft, he⟩ := engineTick_cases (advanceNow s) <;>
    rw [tick, he] at h <;> cases h
  · obtain ⟨hidle, -⟩ := hs.notSending hb
    simp only [State.ahead, advanceNow_eng, hidle, Engine.idle]
    exact ⟨by simp [levelAt], by simp⟩
  · refine LeftAfter.trans ?_ (segmentBoundary_ahead _)
    exact leftAfter_countDown hwait _ _
  · refine LeftAfter.trans ?_ (segmentBoundary_ahead _)
    rw [advanceNow_eng] at hwait
    simp only [State.ahead, setEng_eng, setEng_pin, advanceNow_eng, advanceNow_pin, hwait]
    exact (leftAfter_countDown hleft _ _).cons_empty _ _

/-! ### The pad and BUSY, read off what is ahead -/

/-- BUSY says that there is something ahead (R99). -/
theorem State.Inv.busy_eq {s : State} (h : s.Inv) : s.busy = decide (0 < totalDur s.ahead) := by
  rw [totalDur_ahead]
  cases hb : s.busy with
  | false =>
    obtain ⟨hidle, -⟩ := h.notSending hb
    simp [hidle, Engine.idle, Engine.remaining]
  | true => simp [(h.sending hb).remaining_pos]

/-- The pad is low while a send waits for its first segment (R96, R91). -/
def WaitsLow (s : State) : Prop := s.eng.txWait ≠ 0#32 → s.pin.out = false

/-- The pad shows the first microsecond of what is ahead (R100). -/
theorem State.Inv.out_eq {s : State} (h : s.Inv) (hlow : WaitsLow s) : s.pin.out = levelAt s.ahead 0 := by
  cases hb : s.busy with
  | false =>
    obtain ⟨hidle, hout⟩ := h.notSending hb
    simp [State.ahead, hidle, Engine.idle, levelAt, hout]
  | true =>
    obtain ⟨hphase, -⟩ := h.sending hb
    by_cases hwait : s.eng.txWait = 0#32
    · rw [if_pos hwait] at hphase
      rw [State.ahead, hwait, levelAt_cons_empty, levelAt_cons_zero hphase]
    · rw [State.ahead, levelAt_cons_zero hwait, hlow hwait]

theorem segmentBoundary_waitsLow {s : State} (h : WaitsLow s) : WaitsLow (segmentBoundary s) := by
  obtain ⟨hwait, -, ⟨g, gs, -, he⟩ | ⟨-, he⟩⟩ | ⟨-, he⟩ := segmentBoundary_cases s <;> rw [he]
  · exact fun hne => absurd hwait hne
  · exact fun _ => rfl
  · exact h

theorem tick_waitsLow {s t : State} (hs : WaitsLow s) (h : tick s = .next t) : WaitsLow t := by
  obtain ⟨-, he⟩ | ⟨-, hwait, he⟩ | ⟨-, -, -, he⟩ | ⟨-, -, -, he⟩ := engineTick_cases (advanceNow s) <;>
    rw [tick, he] at h <;> cases h
  · exact hs
  · exact segmentBoundary_waitsLow fun _ => hs hwait
  · exact segmentBoundary_waitsLow hs

/-! ### Many ticks -/

/-- `t` is `n` ticks later than `s`: NOW and what is ahead have moved on, and the pad is driven as before. -/
structure TicksLater (n : Nat) (s t : State) : Prop where
  inv : t.Inv
  waitsLow : WaitsLow t
  now : t.now = s.now + BitVec.ofNat 32 n
  driven : t.pin.oe = s.pin.oe
  ahead : LeftAfter n s.ahead t.ahead

theorem ticks_later {s : State} (hs : s.Inv) (hlow : WaitsLow s) (n : Nat) :
    ∃ u, ticks n s = .next u ∧ TicksLater n s u := by
  induction n generalizing s with
  | zero => exact ⟨s, rfl, hs, hlow, (BitVec.add_zero _).symm, rfl, .refl _⟩
  | succ n ih =>
    obtain ⟨t, ht, hinv⟩ := tick_inv hs
    obtain ⟨u, hu, hlater⟩ := ih hinv (tick_waitsLow hlow ht)
    have hnow : t.now = s.now + 1#32 := by rw [tick_frame ht]
    have hoe : t.pin.oe = s.pin.oe := by rw [tick_frame ht]
    refine ⟨u, by rw [ticks, ht, andThen_next, hu], hlater.inv, hlater.waitsLow, ?_, hlater.driven.trans hoe, ?_⟩
    · rw [hlater.now, hnow, BitVec.add_assoc, ← BitVec.ofNat_add, Nat.add_comm 1 n]
    · rw [Nat.add_comm n 1]
      exact (tick_ahead hs ht).trans hlater.ahead

/-! ### An accepted send -/

/-- A send has TX_LAT low microseconds and then its segments ahead (R96). -/
theorem levelAt_txStart_ahead (segs : List Segment) (s : State) (k : Nat) :
    levelAt (txStart segs s).ahead k = (decide (s.par.txLat.toNat ≤ k) && levelAt segs (k - s.par.txLat.toNat)) := by
  unfold txStart
  by_cases hlat : s.par.txLat = 0#32
  · cases segs <;> simp [hlat, State.ahead, levelAt]
  · by_cases hk : k < s.par.txLat.toNat
    · simp [hlat, State.ahead, levelAt, hk]
    · simp [hlat, State.ahead, levelAt, hk, Nat.le_of_not_lt hk]

/-- A send starts with a low pad, which waits for its first segment (R96). -/
theorem txStart_waitsLow (segs : List Segment) {s : State} (hout : s.pin.out = false) : WaitsLow (txStart segs s) := by
  unfold txStart
  by_cases hlat : s.par.txLat = 0#32
  · cases segs <;> simp [hlat, WaitsLow]
  · simp [hlat, WaitsLow, hout]

/-- An accepted send found the transmitter enabled and idle, and has latched the segments of its pattern (R94-R96). -/
theorem exec_send_ok {i : Instr} (hi : i = .sendCode ∨ i = .sendBits) {s t : State} (h : exec i s = .next t)
    (hok : t.err = .ok) :
    s.busy = false ∧ s.txEn = true ∧ ∃ r, lookup s.par.ptab s.cfg.proto = some r ∧
      t = setErr .ok (txStart (sendSegments s r (sendPattern i s.cfg s.txCode)) s) := by
  obtain ⟨-, hb, v, hv, rfl⟩ | ⟨hne, -⟩ := exec_result h
  · have hstart : ∃ w, startSend w (sendPattern i s.cfg s.txCode) s = .ok v := by
      obtain rfl | rfl := hi <;> exact ⟨_, hv⟩
    obtain ⟨w, hw⟩ := hstart
    obtain ⟨htx, -, r, hr, rfl⟩ := startSend_ok hw
    exact ⟨hb, htx, r, hr, rfl⟩
  · exact absurd hok hne

/-- Settles O23: every tick takes a microsecond from what is ahead, which starts as TX_LAT low ones and the waveform. -/
theorem acceptedSendDrivesWaveform : Obligations.AcceptedSendDrivesWaveform := by
  intro i s t hs hi h hok
  have hinv : t.Inv := exec_inv hs h
  obtain ⟨hb, htx, r, hr, rfl⟩ := exec_send_ok hi h hok
  refine ⟨r, hr, fun segs hsegs n => ?_⟩
  rw [show sendSegments s r (sendPattern i s.cfg s.txCode) = segs from hsegs.symm] at hinv ⊢
  obtain ⟨-, hout⟩ := hs.notSending hb
  obtain ⟨u, hu, hlater⟩ := ticks_later hinv (txStart_waitsLow segs hout) n
  have hoe : (txStart segs s).pin.oe = true := by rw [txStart_frame, hs.driven, htx]
  have htotal : totalDur (txStart segs s).ahead = s.par.txLat.toNat + totalDur segs :=
    (totalDur_ahead _).trans (txStart_remaining segs s)
  have hpad : levelAt u.ahead 0 = levelAt (txStart segs s).ahead n := hlater.ahead.level 0
  have hleft : totalDur u.ahead = totalDur (txStart segs s).ahead - n := hlater.ahead.dur
  refine ⟨u, hu, hlater.now, hlater.driven.trans hoe, ?_, ?_⟩
  · rw [hlater.inv.out_eq hlater.waitsLow, hpad, levelAt_txStart_ahead]
  · rw [hlater.inv.busy_eq, hleft, htotal, decide_eq_decide]
    omega

end Sys2Proof.Machine
end

section
/-! PROOFS. The pattern of a send, and the frame list made of it (R92, R97, R101). -/

namespace Sys2Proof.Machine

/-! ### The pattern -/

theorem codeBits_length (w : Nat) (c : Code) : (codeBits w c).length = w := by
  induction w with
  | zero => rfl
  | succ w ih => rw [codeBits, List.length_cons, ih]

/-- The most significant bit comes first (R92). -/
theorem codeBits_getElem? {w k : Nat} (hk : k < w) (c : Code) : (codeBits w c)[k]? = some (c.getLsbD (w - 1 - k)) := by
  induction w generalizing k with
  | zero => cases hk
  | succ w ih =>
    cases k with
    | zero => rfl
    | succ k =>
      rw [codeBits, List.getElem?_cons_succ, ih (Nat.lt_of_succ_lt_succ hk)]
      congr 2
      omega

theorem codeBits_zero (w : Nat) : codeBits w 0#64 = List.replicate w false := by
  induction w with
  | zero => rfl
  | succ w ih => rw [codeBits, ih, List.replicate_succ, BitVec.getLsbD_zero]

theorem expandP6_length (bits : List Bool) : (expandP6 bits).length = 2 * bits.length := by
  simp [expandP6, List.length_flatMap, Nat.mul_comm]

/-- Bit k of the pattern becomes bits 2k and 2k+1, itself and its complement (R92). -/
theorem expandP6_getElem? {bits : List Bool} {k : Nat} {b : Bool} (h : bits[k]? = some b) :
    (expandP6 bits)[2 * k]? = some b ∧ (expandP6 bits)[2 * k + 1]? = some (!b) := by
  induction bits generalizing k with
  | nil => cases h
  | cons a bits ih =>
    cases k with
    | zero => cases h; exact ⟨rfl, rfl⟩
    | succ k => exact ih h

theorem sendCodePattern_of_ne {c : Cfg} (h : c.proto ≠ 6#3) (code : Code) :
    sendCodePattern c code = codeBits c.bitLength.toNat code :=
  if_neg (by simpa [isProto6] using h)

theorem sendCodePattern_of_eq {c : Cfg} (h : c.proto = 6#3) (code : Code) :
    sendCodePattern c code = expandP6 (codeBits 32 code) :=
  if_pos (by simpa [isProto6] using h)

/-- Settles O18: bit by bit, and pair by pair after the substitution. -/
theorem sendCodePatternBits : Obligations.SendCodePatternBits := by
  refine fun c code => ⟨fun h => ?_, fun h => ?_⟩
  · rw [sendCodePattern_of_ne h]
    exact ⟨codeBits_length _ _, fun k hk => codeBits_getElem? hk code⟩
  · rw [sendCodePattern_of_eq h]
    exact ⟨by rw [expandP6_length, codeBits_length], fun k hk => expandP6_getElem? (codeBits_getElem? hk code)⟩

/-! ### The number of segments -/

theorem frames_eq_flatten (p6 : Bool) (r : ProtoRow) (u : Nat) (pat : List Bool) (n : Nat) :
    frames p6 r u pat n = (List.replicate n (frame p6 r u pat)).flatten := by
  induction n with
  | zero => rfl
  | succ n ih => rw [frames, ih, List.replicate_succ, List.flatten_cons]

theorem bitWave_length (r : ProtoRow) (u : Nat) (b : Bool) : (bitWave r u b).length = 2 := by
  cases b <;> rfl

/-- A waveform is two segments, one each for the bits, the closing sync and, for protocol 6, the first sync (R97). -/
theorem frame_length (p6 : Bool) (r : ProtoRow) (u : Nat) (pat : List Bool) :
    (frame p6 r u pat).length = 2 * (pat.length + 1 + p6.toNat) := by
  have hbits : (pat.flatMap (bitWave r u)).length = 2 * pat.length := by
    simp [List.length_flatMap, bitWave_length, Nat.mul_comm]
  have hfirst : (if p6 then syncWave r u else []).length = 2 * p6.toNat := by cases p6 <;> rfl
  have hsync : (syncWave r u).length = 2 := rfl
  rw [frame, List.length_append, List.length_append, hfirst, hbits, hsync]
  ring

/-! ### Their alternation -/

/-- A waveform is high and then low, so what follows starts high again (R98). -/
theorem alternates_wave_append (u : Nat) (h l : BitVec 8) (gs : List Segment) :
    alternates true (wave u h l ++ gs) = alternates true gs := rfl

theorem alternates_bitWave_append (r : ProtoRow) (u : Nat) (b : Bool) (gs : List Segment) :
    alternates true (bitWave r u b ++ gs) = alternates true gs := by
  cases b <;> exact alternates_wave_append _ _ _ _

theorem alternates_bits_append (r : ProtoRow) (u : Nat) (pat : List Bool) (gs : List Segment) :
    alternates true (pat.flatMap (bitWave r u) ++ gs) = alternates true gs := by
  induction pat with
  | nil => rfl
  | cons b pat ih => rw [List.flatMap_cons, List.append_assoc, alternates_bitWave_append, ih]

theorem alternates_frame_append (p6 : Bool) (r : ProtoRow) (u : Nat) (pat : List Bool) (gs : List Segment) :
    alternates true (frame p6 r u pat ++ gs) = alternates true gs := by
  have hbits : alternates true (pat.flatMap (bitWave r u) ++ (syncWave r u ++ gs)) = alternates true gs :=
    (alternates_bits_append r u pat _).trans (alternates_wave_append _ _ _ _)
  cases p6 <;> rw [frame, List.append_assoc, List.append_assoc]
  · exact hbits
  · exact (alternates_wave_append _ _ _ _).trans hbits

theorem alternates_frames (p6 : Bool) (r : ProtoRow) (u : Nat) (pat : List Bool) (n : Nat) :
    alternates true (frames p6 r u pat n) = true := by
  induction n with
  | zero => rfl
  | succ n ih => rw [frames, alternates_frame_append, ih]

/-- Settles O19: the list is its repeats one after the other, each made of waveforms of two segments. -/
theorem frameListStructure : Obligations.FrameListStructure := by
  refine fun p6 r u pat n => ⟨frames_eq_flatten p6 r u pat n, ?_, alternates_frames p6 r u pat n⟩
  rw [frames_eq_flatten, List.length_flatten, List.map_replicate, List.sum_replicate, frame_length, smul_eq_mul]
  ring

/-! ### The microseconds -/

theorem totalDur_append (xs ys : List Segment) : totalDur (xs ++ ys) = totalDur xs + totalDur ys := by
  simp [totalDur]

section
variable {u : Nat} (hu : u ≤ 65535) (r : ProtoRow)
include hu

theorem totalDur_wave (h l : BitVec 8) : totalDur (wave u h l) = u * 3 * (h.toNat + l.toNat) := by
  simp only [wave, totalDur_cons, totalDur_nil, waveSegment_dur_toNat _ _ hu]
  ring

theorem totalDur_bits (pat : List Bool) :
    totalDur (pat.flatMap (bitWave r u)) = u * 3 * (pat.map (waveUnits r)).sum := by
  induction pat with
  | nil => rfl
  | cons b pat ih =>
    have hbit : totalDur (bitWave r u b) = u * 3 * waveUnits r b := by cases b <;> exact totalDur_wave hu _ _
    rw [List.flatMap_cons, totalDur_append, ih, hbit, List.map_cons, List.sum_cons, Nat.mul_add]

theorem totalDur_frame (p6 : Bool) (pat : List Bool) :
    totalDur (frame p6 r u pat) =
      u * 3 * ((1 + p6.toNat) * (r.syncHigh.toNat + r.syncLow.toNat) + (pat.map (waveUnits r)).sum) := by
  have hsync : totalDur (syncWave r u) = u * 3 * (r.syncHigh.toNat + r.syncLow.toNat) := totalDur_wave hu _ _
  have hfirst : totalDur (if p6 then syncWave r u else []) =
      p6.toNat * (u * 3 * (r.syncHigh.toNat + r.syncLow.toNat)) := by
    cases p6
    · simp
    · simp [hsync]
  rw [frame, totalDur_append, totalDur_append, totalDur_bits hu, hsync, hfirst]
  ring

theorem totalDur_frames (p6 : Bool) (pat : List Bool) (n : Nat) :
    totalDur (frames p6 r u pat n) =
      n * u * 3 * ((1 + p6.toNat) * (r.syncHigh.toNat + r.syncLow.toNat) + (pat.map (waveUnits r)).sum) := by
  induction n with
  | zero => simp [frames]
  | succ n ih =>
    rw [frames, totalDur_append, totalDur_frame hu, ih]
    ring
end

/-- Settles O20: the sum of each waveform's units; row 1 has 32 for the sync and 4 for a zero, 36 × 350 × 3 in all. -/
theorem frameListDuration : Obligations.FrameListDuration := by
  refine ⟨fun p6 r u pat n hu => totalDur_frames hu r p6 pat n, fun r hr => ?_⟩
  simp only [ProtoRow.isSourceRow1, Bool.and_eq_true, beq_iff_eq] at hr
  obtain ⟨⟨⟨⟨-, hsyncHigh⟩, hsyncLow⟩, hzeroHigh⟩, hzeroLow⟩ := hr
  rw [totalDur_frames (by decide), hsyncHigh, hsyncLow]
  simp [waveUnits, hzeroHigh, hzeroLow]

end Sys2Proof.Machine
end

section
/-! PROOFS. ENABLE_TX and DISABLE_TX (R90, R91). -/

namespace Sys2Proof.Machine

section
variable {s : State} (hb : s.busy = false)
include hb

theorem exec_enableTx_listening (hrx : s.rxEn = true) : exec .enableTx s = .next (setErr .roleConflict s) :=
  runCommand_error hb (if_pos hrx)

theorem exec_enableTx_enabled (hrx : s.rxEn = false) (htx : s.txEn = true) :
    exec .enableTx s = .next (setErr .ok s) :=
  runCommand_ok hb (by simp [enableTxBody, hrx, htx])

theorem exec_enableTx_disabled (hrx : s.rxEn = false) (htx : s.txEn = false) :
    exec .enableTx s =
      .next (setErr .ok { s with txEn := true, pin := { s.pin with oe := true, out := false } }) :=
  runCommand_ok hb (by simp [enableTxBody, hrx, htx])

theorem exec_disableTx_enabled (htx : s.txEn = true) :
    exec .disableTx s =
      .next (setErr .ok { s with txEn := false, pin := { s.pin with oe := false, out := false } }) :=
  runCommand_ok hb (if_pos htx)

theorem exec_disableTx_disabled (htx : s.txEn = false) : exec .disableTx s = .next (setErr .ok s) :=
  runCommand_ok hb (by simp [disableTxBody, htx])
end

/-- Settles O9, clause by clause; from reset the fourth clause applies. -/
theorem enableTxRule : Obligations.EnableTxRule :=
  ⟨decode_encode .enableTx, fun _ => exec_busy .enableTx, fun _ => exec_enableTx_listening,
    fun _ => exec_enableTx_disabled, fun _ => exec_enableTx_enabled,
    _, exec_enableTx_disabled rfl rfl rfl, by decide, by decide⟩

/-- While transmit is enabled, receive is not, and the mailbox is empty (R15 I1, R129). -/
theorem State.Inv.not_receiving {s : State} (h : s.Inv) (htx : s.txEn = true) :
    s.rxEn = false ∧ s.mb = CodeSlot.empty := by
  have hrx : s.rxEn = false := by simpa [htx] using h.oneRole
  exact ⟨hrx, (h.rxOff hrx).2⟩

/-- The two low bits of PIN_STAT are the drive enable and the level driven (R45). -/
theorem pinStatImage_and_three (p : Pin) :
    pinStatImage p &&& 3#32 = 0#30 ++ BitVec.ofBool p.oe ++ BitVec.ofBool p.out := by
  obtain ⟨out, oe, inp⟩ := p
  cases out <;> cases oe <;> cases inp <;> rfl

/-- Settles O10: a transmitting block of the invariant has no receiver and no mailbox to show in STATUS. -/
theorem disableTxRule : Obligations.DisableTxRule := by
  refine ⟨decode_encode .disableTx, fun _ => exec_busy .disableTx, fun _ => exec_disableTx_enabled,
    fun _ => exec_disableTx_disabled, fun s h htx hb => ⟨_, exec_disableTx_enabled hb htx, ?_, ?_⟩⟩
  · obtain ⟨hrx, hmb⟩ := h.not_receiving htx
    change statusImage _ = 0#32
    simp [statusImage, hrx, hmb, hb, CodeSlot.empty, ErrCode.code]
  · exact (pinStatImage_and_three _).trans (by simp)

end Sys2Proof.Machine
end

section
/-! PROOFS. SEND_CODE and SEND_BITS: their checks in order, and the send they start (R92, R94, R95). -/

namespace Sys2Proof.Machine

section
variable {s : State} {w : Nat} (pat : List Bool)

theorem startSend_notEnabled (htx : s.txEn = false) : startSend w pat s = .error .notEnabled := if_pos htx

section
variable (htx : s.txEn = true)
include htx

theorem startSend_noRow (hr : lookup s.par.ptab s.cfg.proto = none) :
    startSend w pat s = .error .invalidProtocol := by
  simp [startSend, htx, hr]

variable {r : ProtoRow} (hr : lookup s.par.ptab s.cfg.proto = some r)
include hr

theorem startSend_noRepeat (hrep : s.cfg.txRepeat = 0#16) : startSend w pat s = .error .invalidConfig := by
  simp [startSend, htx, hr, hrep]

variable (hrep : s.cfg.txRepeat ≠ 0#16)
include hrep

theorem startSend_badWidth (hw : w < 1 ∨ 64 < w) : startSend w pat s = .error .invalidConfig := by
  simp only [startSend, htx, hr, hrep, Config.maxBitLen, hw, if_true, if_false, Bool.true_eq_false]

variable (hpos : 1 ≤ w) (hle : w ≤ 64)
include hpos hle

/-- A code of more than `w` bits is rejected; there is none for the width 64 (R94). -/
theorem startSend_codeRange (hc : 2 ^ w ≤ s.txCode.toNat) : startSend w pat s = .error .codeRange := by
  have hw : ¬(w < 1 ∨ 64 < w) := by omega
  have hlt : w < 64 := (Nat.pow_lt_pow_iff_right (by decide)).1 (Nat.lt_of_le_of_lt hc s.txCode.isLt)
  simp only [startSend, htx, hr, hrep, Config.maxBitLen, hw, hlt, hc, and_self, if_true, if_false, Bool.true_eq_false]

theorem startSend_accepted (hc : s.txCode.toNat < 2 ^ w) :
    startSend w pat s = .ok (txStart (sendSegments s r pat) s) := by
  have hw : ¬(w < 1 ∨ 64 < w) := by omega
  have hrange : ¬(w < 64 ∧ 2 ^ w ≤ s.txCode.toNat) := fun h => Nat.not_le_of_lt hc h.2
  simp only [startSend, htx, hr, hrep, Config.maxBitLen, hw, hrange, if_false, Bool.true_eq_false]
end
end

theorem sendCodeWidth_of_ne {c : Cfg} (h : c.proto ≠ 6#3) : sendCodeWidth c = c.bitLength.toNat :=
  if_neg (by simpa [isProto6] using h)

theorem sendCodeWidth_of_eq {c : Cfg} (h : c.proto = 6#3) : sendCodeWidth c = 32 :=
  if_pos (by simpa [isProto6] using h)

theorem commandBody_sendCode_of_ne {s : State} (h : s.cfg.proto ≠ 6#3) :
    commandBody .sendCode s = startSend s.cfg.bitLength.toNat (codeBits s.cfg.bitLength.toNat s.txCode) s := by
  rw [commandBody, sendCodeWidth_of_ne h, sendCodePattern_of_ne h]

theorem commandBody_sendCode_of_eq {s : State} (h : s.cfg.proto = 6#3) :
    commandBody .sendCode s = startSend 32 (expandP6 (codeBits 32 s.txCode)) s := by
  rw [commandBody, sendCodeWidth_of_eq h, sendCodePattern_of_eq h]

/-- Settles O11: the checks of `startSend` on the width and pattern of the protocol. -/
theorem sendCodeRule : Obligations.SendCodeRule := by
  refine ⟨decode_encode .sendCode, fun _ => exec_busy .sendCode,
    fun _ hb htx => runCommand_error hb (startSend_notEnabled _ htx),
    fun _ hb htx hr => runCommand_error hb (startSend_noRow _ htx hr), fun s r hb htx hr => ?_,
    codeBits_zero, fun _ _ => rfl, by decide⟩
  refine ⟨fun hrep => runCommand_error hb (startSend_noRepeat _ htx hr hrep), fun hrep hp hw => ?_,
    fun hrep hp hpos hle => ?_, fun hrep hp => ?_⟩
  · exact runCommand_error hb <|
      (commandBody_sendCode_of_ne hp).trans (startSend_badWidth _ htx hr hrep hw)
  · have hbody := commandBody_sendCode_of_ne hp
    exact ⟨fun hc => runCommand_error hb (hbody.trans (startSend_codeRange _ htx hr hrep hpos hle hc)),
      fun hc => runCommand_ok hb (hbody.trans (startSend_accepted _ htx hr hrep hpos hle hc))⟩
  · have hbody := commandBody_sendCode_of_eq hp
    exact ⟨fun hc => runCommand_error hb
        (hbody.trans (startSend_codeRange _ htx hr hrep (by decide) (by decide) hc)),
      fun hc => runCommand_ok hb
        (hbody.trans (startSend_accepted _ htx hr hrep (by decide) (by decide) hc))⟩

/-- Settles O12: the same checks on BIT_LENGTH and the pattern as given, for every protocol. -/
theorem sendBitsRule : Obligations.SendBitsRule := by
  refine ⟨decode_encode .sendBits, fun _ => exec_busy .sendBits,
    fun _ hb htx => runCommand_error hb (startSend_notEnabled _ htx),
    fun _ hb htx hr => runCommand_error hb (startSend_noRow _ htx hr), fun s r hb htx hr => ?_,
    by decide, fun r unit => ?_⟩
  · refine ⟨fun hbad => runCommand_error hb ?_, fun hrep hpos hle => ⟨fun hc => ?_, fun hc => ?_⟩⟩
    · by_cases hrep : s.cfg.txRepeat = 0#16
      · exact startSend_noRepeat _ htx hr hrep
      · exact startSend_badWidth _ htx hr hrep (hbad.resolve_left hrep)
    · exact runCommand_error hb (startSend_codeRange _ htx hr hrep hpos hle hc)
    · exact runCommand_ok hb (startSend_accepted _ htx hr hrep hpos hle hc)
  · simp [frame]

end Sys2Proof.Machine
end

section
/-! PROOFS. What a send latches, and the tick case by case (R96, R99). -/

namespace Sys2Proof.Machine

/-! ### What a send latches -/

theorem txStart_of_latency (segs : List Segment) {s : State} (h : s.par.txLat ≠ 0#32) :
    txStart segs s = { s with eng := { txq := segs, segLeft := 0#32, txWait := s.par.txLat }, busy := true } :=
  if_neg h

/-- With no latency the first segment is on the pin at once (R96). -/
theorem txStart_of_no_latency (g : Segment) (gs : List Segment) {s : State} (h : s.par.txLat = 0#32) :
    txStart (g :: gs) s =
      { s with
        eng := { txq := gs, segLeft := g.dur, txWait := 0#32 }
        busy := true
        pin := { s.pin with out := g.level } } := by
  simp [txStart, startSegment, h]

/-- Settles O21. -/
theorem txStartLatchesWaveform : Obligations.TxStartLatchesWaveform :=
  ⟨fun _ _ _ => rfl, fun _ _ _ => rfl, fun segs _ => txStart_of_latency segs, fun g gs _ => txStart_of_no_latency g gs⟩

/-! ### The tick -/

section
variable {s : State}

theorem tick_idle (hb : s.busy = false) : tick s = .next (advanceNow s) := if_pos hb

variable (hb : s.busy = true)
include hb

/-- While a send waits, a tick counts TX_WAIT down (R99). -/
theorem tick_waiting (hwait : s.eng.txWait ≠ 0#32) :
    tick s = .next (segmentBoundary (setEng { s.eng with txWait := s.eng.txWait - 1#32 } (advanceNow s))) := by
  simp [tick, engineTick, hb, hwait]

/-- While a segment is on the pin, a tick counts SEG_LEFT down (R99). -/
theorem tick_sending (hwait : s.eng.txWait = 0#32) (hleft : s.eng.segLeft ≠ 0#32) :
    tick s = .next (segmentBoundary (setEng { s.eng with segLeft := s.eng.segLeft - 1#32 } (advanceNow s))) := by
  simp [tick, engineTick, hb, hwait, hleft]
end

section
variable {s : State} {e : Engine} (h : tick s = .next (segmentBoundary (setEng e (advanceNow s))))
include h

/-- Between boundaries a tick only counts (R99). -/
theorem tick_counts (hstay : ¬(e.txWait = 0#32 ∧ e.segLeft = 0#32)) : tick s = .next (setEng e (advanceNow s)) := by
  rw [h, segmentBoundary_stay hstay]

variable (hwait : e.txWait = 0#32) (hleft : e.segLeft = 0#32)
include hwait hleft

/-- A tick that brings the counters to 0 starts the next segment (R99). -/
theorem tick_starts {g : Segment} {gs : List Segment} (hq : e.txq = g :: gs) :
    tick s =
      .next { s with
        now := s.now + 1#32
        eng := { txq := gs, segLeft := g.dur, txWait := 0#32 }
        pin := { s.pin with out := g.level } } := by
  rw [h, segmentBoundary_start hwait hleft hq]
  simp only [startSegment, setEng_eng, hwait]
  rfl

/-- With no segment left it ends the send (R99). -/
theorem tick_ends (hq : e.txq = []) :
    tick s =
      .next { s with
        now := s.now + 1#32
        eng := { txq := [], segLeft := 0#32, txWait := 0#32 }
        busy := false
        pin := { s.pin with out := false } } := by
  rw [h, segmentBoundary_end hwait hleft hq, Engine.eq_idle hq hleft hwait]
  rfl
end

/-- A counter above 1 is neither 0 nor counted down to 0. -/
theorem ne_zero_and_sub_one_ne_zero {x : Word} (h : 1 < x.toNat) : x ≠ 0#32 ∧ x - 1#32 ≠ 0#32 := by
  constructor <;> bv_omega

/-- Settles O22: which counter the tick takes down, and whether that makes a boundary. -/
theorem tickAdvancesEngine : Obligations.TickAdvancesEngine := by
  intro s
  refine ⟨tick_idle, fun hb hlong => ?_, fun g gs hb hwait hleft hq => ?_, fun hb hwait hlong => ?_,
    fun g gs hb hwait hleft hq => ?_, fun hb hwait hleft hq => ?_⟩
  · obtain ⟨hne, hne'⟩ := ne_zero_and_sub_one_ne_zero hlong
    exact tick_counts (tick_waiting hb hne) fun h => hne' h.1
  · exact tick_starts (tick_waiting hb (by simp [hwait])) (by simp [hwait]) hleft hq
  · obtain ⟨hne, hne'⟩ := ne_zero_and_sub_one_ne_zero hlong
    exact tick_counts (tick_sending hb hwait hne) fun h => hne' h.2
  · exact tick_starts (tick_sending hb hwait (by simp [hleft])) hwait (by simp [hleft]) hq
  · exact tick_ends (tick_sending hb hwait (by simp [hleft])) hwait (by simp [hleft]) hq

end Sys2Proof.Machine
end

section
/-! PROOFS. A send in progress: what its agents' steps leave (R102). -/

namespace Sys2Proof.Machine

/-- With receive disabled a pad change is no EDGE event (R105). -/
theorem padChange_not_receiving {s : State} (h : s.rxEn = false) (level : Bool) :
    padChange level s = .next { s with pin := { s.pin with inp := level } } :=
  if_neg fun hedge => by simp [h] at hedge

/-- While a send is in progress a host access changes at most ERR, TX_CODE and the bus's answer (R102, R17). -/
theorem access_busy {a : Access} {s t : State} (hb : s.busy = true) (htx : s.txEn = true) (h : access a s = .next t) :
    t = { s with err := t.err, txCode := t.txCode, busResp := t.busResp } := by
  obtain ⟨i, -, hexec⟩ | ⟨htx', -⟩ | ht := access_eq_next_cases h
  · rw [exec_busy i (s := respond .written s) hb] at hexec
    cases hexec
    rfl
  · cases htx.symm.trans htx'
  · exact ht

/-- Settles O24: commands meet BUSY, configuration writes the lock, and pad changes a disabled receiver. -/
theorem busySendCannotBeStopped : Obligations.BusySendCannotBeStopped := by
  intro s h hb
  have htx := h.busyTx hb
  obtain ⟨hrx, -⟩ := h.not_receiving htx
  refine ⟨fun i => exec_busy i hb, fun e htick hreset => ?_, resetStep s, rfl, rfl, rfl, rfl, rfl⟩
  cases e with
  | access a =>
    obtain ⟨t, ht⟩ := access_next a s
    refine ⟨t, ht, ?_⟩
    rw [access_busy hb htx ht]
    exact ⟨rfl, hb, htx, rfl, rfl, rfl, rfl⟩
  | pad level => exact ⟨_, padChange_not_receiving hrx level, rfl, hb, htx, rfl, rfl, rfl, rfl⟩
  | tick => exact absurd rfl htick
  | reset => exact absurd rfl hreset

end Sys2Proof.Machine
end

section
/-! PROOFS. What an EDGE step does, by the duration it measures (R105-R111). -/

namespace Sys2Proof.Machine

section
variable {ts : Word} {s : State}

theorem edge_noise (noise : (edgeDuration ts s).toNat ≤ 300) : edge ts s = .next s := if_pos noise

theorem edge_data (above : 300 < (edgeDuration ts s).toNat) (data : (edgeDuration ts s).toNat ≤ 15000) :
    edge ts s = .next (dataEdge (edgeDuration ts s) ts s) :=
  (if_neg (Nat.not_le_of_lt above)).trans (if_neg (Nat.not_lt_of_le data))

theorem edge_sync (sync : 15000 < (edgeDuration ts s).toNat) : edge ts s = syncEdge (edgeDuration ts s) ts s :=
  (if_neg (Nat.not_le_of_lt (Nat.lt_trans (by decide) sync))).trans (if_pos sync)

/-- A frame boundary after at most two counted edges has nothing to decode (R109). -/
theorem edge_sync_short (sync : 15000 < (edgeDuration ts s).toNat) (short : s.cap.changeCount.toNat ≤ 2) :
    edge ts s = .next (openFrame (edgeDuration ts s) ts (countSync s)) := by
  have hcount : ¬1 < adjustedCount s := by simp only [adjustedCount]; omega
  rw [edge_sync sync, syncEdge, if_neg hcount, andThen_next]

/-- A frame boundary after more edges opens the next frame on the state that DECODE leaves (R109). -/
theorem edge_sync_decoded {u : State} (sync : 15000 < (edgeDuration ts s).toNat) (long : 2 < s.cap.changeCount.toNat)
    (hu : decodeFrame (s.cap.changeCount.toNat - 1) ts (countSync s) = .next u) :
    edge ts s = .next (openFrame (edgeDuration ts s) ts u) := by
  have hcount : 1 < adjustedCount s := by simp only [adjustedCount]; omega
  have hn : (adjustedCount s).toNat = s.cap.changeCount.toNat - 1 := by simp only [adjustedCount]; omega
  rw [edge_sync sync, syncEdge, if_pos hcount, hn, hu, andThen_next]

/-- With the count at 67 a data half-pulse restarts the capture and is not stored (R110). -/
theorem dataEdge_full (full : 67 ≤ s.cap.changeCount.toNat) (d : Word) :
    dataEdge d ts s = { s with cap := { lastTs := ts, changeCount := 0#7, syncCount := 0#32, buf := s.cap.buf } } :=
  if_pos full

/-- Below 67 a data half-pulse is stored at the count (R110). -/
theorem dataEdge_stored (room : s.cap.changeCount.toNat < 67) (d : Word) :
    dataEdge d ts s =
      { s with
        cap := {
          lastTs := ts
          changeCount := s.cap.changeCount + 1#7
          syncCount := s.cap.syncCount
          buf := s.cap.buf.set s.cap.changeCount.toNat d } } := by
  have hbuf : s.cap.buf.setIfInBounds s.cap.changeCount.toNat d = s.cap.buf.set s.cap.changeCount.toNat d := by
    ext i hi
    rw [Vector.getElem_setIfInBounds, Vector.getElem_set]
  rw [dataEdge, if_neg (Nat.not_le_of_lt room), hbuf]

theorem dataEdge_lastTs (d : Word) : (dataEdge d ts s).cap.lastTs = ts := by
  unfold dataEdge
  split <;> rfl

theorem dataEdge_setPin (d : Word) (p : Pin) :
    dataEdge d ts { s with pin := p } = { dataEdge d ts s with pin := p } := by
  unfold dataEdge
  split <;> rfl
end

/-- DECODE reads neither the pad nor SYNC_COUNT (R114). -/
theorem decodeFrame_setPin_setSyncCount {n : Nat} {ts : Word} {s t : State} (h : decodeFrame n ts s = .next t) (p : Pin)
    (c : Word) :
    decodeFrame n ts { s with pin := p, cap := { s.cap with syncCount := c } } =
      .next { t with pin := p, cap := { t.cap with syncCount := c } } := by
  unfold decodeFrame at h ⊢
  cases hr : lookup s.par.ptab s.cfg.proto with
  | none => simp [hr] at h
  | some r =>
    simp only [hr] at h ⊢
    split at h
    · cases h
      split <;> rfl
    · cases h; rfl
    · cases h

theorem decodeFrame_setPin {n : Nat} {ts : Word} {s t : State} (h : decodeFrame n ts s = .next t) (p : Pin) :
    decodeFrame n ts { s with pin := p } = .next { t with pin := p } := by
  have hpin := decodeFrame_setPin_setSyncCount h p s.cap.syncCount
  obtain rfl | ⟨c, -, -, rfl⟩ := decodeFrame_cases h <;> exact hpin

/-- Counting the sync first makes no difference to DECODE (R109, R114). -/
theorem decodeFrame_countSync {n : Nat} {ts : Word} {s t : State} (h : decodeFrame n ts s = .next t) :
    decodeFrame n ts (countSync s) = .next (countSync t) := by
  have hsync := decodeFrame_setPin_setSyncCount h s.pin (s.cap.syncCount + 1#32)
  obtain rfl | ⟨c, -, -, rfl⟩ := decodeFrame_cases h <;> exact hsync

/-- The frame boundary in the words of R109: of DECODE only the mailbox stays. -/
theorem openFrame_countSync_of_decodeFrame {n : Nat} {ts : Word} {s u : State} (h : decodeFrame n ts s = .next u)
    (d : Word) :
    openFrame d ts (countSync u) =
      { s with
        cap := { lastTs := ts, changeCount := 1#7, syncCount := s.cap.syncCount + 1#32, buf := s.cap.buf.set 0 d }
        mb := u.mb } := by
  obtain rfl | ⟨c, -, -, rfl⟩ := decodeFrame_cases h <;> rfl

/-- The pad takes no part in an EDGE step (R105). -/
theorem edge_setPin {ts : Word} {s t : State} (h : edge ts s = .next t) (p : Pin) :
    edge ts { s with pin := p } = .next { t with pin := p } := by
  obtain ⟨noise, rfl⟩ | ⟨sync, u, rfl, ⟨short, rfl⟩ | ⟨long, hu⟩⟩ | ⟨above, data, rfl⟩ := edge_cases h
  · exact edge_noise noise
  · exact edge_sync_short sync short
  · exact edge_sync_decoded (s := { s with pin := p }) sync long (decodeFrame_setPin hu p)
  · exact (edge_data (s := { s with pin := p }) above data).trans (congrArg _ (dataEdge_setPin _ p))

/-- Every edge that is no noise is the one the next duration is measured from (R111). -/
theorem edge_lastTs {ts : Word} {s t : State} (above : 300 < (edgeDuration ts s).toNat) (h : edge ts s = .next t) :
    t.cap.lastTs = ts := by
  obtain ⟨noise, -⟩ | ⟨-, u, rfl, -⟩ | ⟨-, -, rfl⟩ := edge_cases h
  · exact absurd above (Nat.not_lt_of_le noise)
  · rfl
  · exact dataEdge_lastTs _

/-- The count stays at most 67 (R15 I2). -/
theorem edge_changeCount_le {ts : Word} {s t : State} (hcount : s.cap.changeCount.toNat ≤ 67)
    (h : edge ts s = .next t) : t.cap.changeCount.toNat ≤ 67 := by
  obtain ⟨-, rfl⟩ | ⟨-, u, rfl, -⟩ | ⟨-, -, rfl⟩ := edge_cases h
  · exact hcount
  · exact (by decide : (1#7).toNat ≤ 67)
  · obtain room | full := Nat.lt_or_ge s.cap.changeCount.toNat 67
    · rw [dataEdge_stored room]
      simp only [BitVec.toNat_add, BitVec.toNat_ofNat]
      omega
    · rw [dataEdge_full full]
      exact Nat.zero_le 67

/-- Settles O26: the two cases of a pad change, and `edge_setPin`. -/
theorem padTransitionsAreEdges : Obligations.PadTransitionsAreEdges := by
  refine ⟨fun s level => padChange_transition, fun s level hquiet => if_neg ?_, fun ts s t p h => edge_setPin h p⟩
  rintro ⟨hrx, hlevel⟩
  obtain hoff | hsame := hquiet
  · cases hrx.symm.trans hoff
  · exact hlevel hsame

/-- Settles O29: a count of 2 at most has nothing to decode; DECODE of more neither reads nor writes SYNC_COUNT. -/
theorem frameBoundaryRule : Obligations.FrameBoundaryRule := by
  refine fun ts s sync => ⟨fun short => edge_sync_short sync short, fun long u hu => ?_, fun h hrx => ?_⟩
  · rw [edge_sync_decoded sync long (decodeFrame_countSync hu), openFrame_countSync_of_decodeFrame hu]
  · obtain ⟨hrow, -⟩ := h.rxConfig hrx
    obtain ⟨hcount, -, -⟩ := h.capture
    obtain ⟨r, hr⟩ := Option.isSome_iff_exists.1 hrow
    exact decodeFrame_next hr (Nat.le_trans (Nat.sub_le _ 1) hcount)

/-- Settles O30: the two cases of `dataEdge`; slot 67 is never the one written (`edgeWritesOneSlot`). -/
theorem dataEdgeRule : Obligations.DataEdgeRule := by
  obtain ⟨slots, -⟩ := edgeWritesOneSlot
  refine ⟨fun ts s above data => ⟨fun full => ?_, fun room => ?_⟩, fun ts s t above h => edge_lastTs above h,
    fun ts s t hcount h => ⟨edge_changeCount_le hcount h, (slots ts s t hcount h).2, by rw [edge_frame h]⟩⟩
  · rw [edge_data above data, dataEdge_full full]
  · rw [edge_data above data, dataEdge_stored room]

/-- Settles O28: noise is the first branch of `edge`. -/
theorem noiseEdgeChangesNothing : Obligations.NoiseEdgeChangesNothing := fun _ _ => edge_noise

end Sys2Proof.Machine
end

section
/-! PROOFS. ENABLE_RX and DISABLE_RX, and the first duration after enabling (R103, R104, R107). -/

namespace Sys2Proof.Machine

section
variable {s : State} (hb : s.busy = false)
include hb

theorem exec_enableRx_transmitting (htx : s.txEn = true) : exec .enableRx s = .next (setErr .roleConflict s) :=
  runCommand_error hb (if_pos htx)

section
variable (htx : s.txEn = false)
include htx

theorem exec_enableRx_enabled (hrx : s.rxEn = true) : exec .enableRx s = .next (setErr .ok s) :=
  runCommand_ok hb (by simp [enableRxBody, htx, hrx])

variable (hrx : s.rxEn = false)
include hrx

theorem exec_enableRx_noRow (hr : lookup s.par.ptab s.cfg.proto = none) :
    exec .enableRx s = .next (setErr .invalidProtocol s) :=
  runCommand_error hb (by simp [enableRxBody, htx, hrx, hr])

variable {r : ProtoRow} (hr : lookup s.par.ptab s.cfg.proto = some r)
include hr

theorem exec_enableRx_badTol (htol : 100 < s.cfg.tol.toNat) : exec .enableRx s = .next (setErr .invalidConfig s) :=
  runCommand_error hb (by simp [enableRxBody, htx, hrx, hr, htol])

theorem exec_enableRx_accepted (htol : s.cfg.tol.toNat ≤ 100) :
    exec .enableRx s = .next (setErr .ok (clearRx { s with rxEn := true })) :=
  runCommand_ok hb (by simp [enableRxBody, htx, hrx, hr, Nat.not_lt_of_le htol])
end

theorem exec_disableRx_enabled (hrx : s.rxEn = true) :
    exec .disableRx s = .next (setErr .ok (clearRx { s with rxEn := false })) :=
  runCommand_ok hb (if_pos hrx)

theorem exec_disableRx_disabled (hrx : s.rxEn = false) : exec .disableRx s = .next (setErr .ok s) :=
  runCommand_ok hb (by simp [disableRxBody, hrx])
end

/-- Without transmit no send is in progress (R15 I3). -/
theorem State.Inv.not_busy {s : State} (h : s.Inv) (htx : s.txEn = false) : s.busy = false :=
  Bool.eq_false_iff.2 fun hb => by cases htx.symm.trans (h.busyTx hb)

/-- While receive is enabled, transmit is not (R15 I1). -/
theorem State.Inv.not_transmitting {s : State} (h : s.Inv) (hrx : s.rxEn = true) : s.txEn = false := by
  simpa [hrx] using h.oneRole

/-- An ENABLE_RX that enables receive clears the capture state (R103). -/
theorem exec_enableRx_cap {s t : State} (hoff : s.rxEn = false) (h : exec .enableRx s = .next t)
    (hon : t.rxEn = true) : t.cap = Capture.cleared := by
  obtain ⟨-, -, u, hu, rfl⟩ | ⟨-, ht⟩ := exec_result h
  · obtain ⟨-, rfl | ⟨-, -, rfl⟩⟩ := enableRxBody_ok hu
    · cases hoff.symm.trans hon
    · rfl
  · rw [ht] at hon
    cases hoff.symm.trans hon

/-- Settles O13: the checks of `enableRxBody` in their order; from reset with PROTO 1 the accepting clause applies. -/
theorem enableRxRule : Obligations.EnableRxRule := by
  refine ⟨decode_encode .enableRx, fun _ => exec_busy .enableRx, fun _ => exec_enableRx_transmitting,
    fun _ => exec_enableRx_enabled, fun s hb htx hrx => ⟨exec_enableRx_noRow hb htx hrx, fun hr htol => ?_,
      fun hr htol => ?_⟩, fun _ h => h.not_busy, fun _ level hrx => padChange_not_receiving hrx level,
    _, exec_enableRx_accepted rfl rfl rfl (r := Config.params.ptab.row1) rfl (by decide), by decide, by decide⟩
  · obtain ⟨r, hr⟩ := Option.ne_none_iff_exists'.1 hr
    exact exec_enableRx_badTol hb htx hrx hr htol
  · obtain ⟨r, hr⟩ := Option.ne_none_iff_exists'.1 hr
    exact exec_enableRx_accepted hb htx hrx hr htol

/-- Settles O14: a receiving block of the invariant has no transmitter and no send to show in STATUS. -/
theorem disableRxRule : Obligations.DisableRxRule := by
  refine ⟨decode_encode .disableRx, fun _ => exec_busy .disableRx, fun s h hrole => h.not_busy ?_,
    fun _ => exec_disableRx_enabled, fun _ => exec_disableRx_disabled, fun s h hrx _ => ?_⟩
  · exact hrole.elim h.not_transmitting id
  · have htx := h.not_transmitting hrx
    have hb := h.not_busy htx
    refine ⟨_, exec_disableRx_enabled hb hrx, ?_⟩
    change statusImage _ = 0#32
    simp [statusImage, htx, hb, CodeSlot.empty, ErrCode.code]

/-- Settles O27: subtraction of words, from a LAST_TS of 0 after enabling. -/
theorem edgeDurationIsModular : Obligations.EdgeDurationIsModular := by
  refine ⟨fun ts s => ?_, fun s t hoff h hon ts => ?_⟩
  · rw [edgeDuration, BitVec.toNat_sub, Nat.add_comm]
  · rw [edgeDuration, exec_enableRx_cap hoff h hon]
    exact BitVec.sub_zero ts

end Sys2Proof.Machine
end

section
/-! PROOFS. The template match, the bit of a pair, and the walk of the pairs (R117-R119, R125). -/

namespace Sys2Proof.Machine

/-! ### One duration -/

theorem matchesTemplate_iff (tol : Nat) (d : Word) (t : Nat) :
    matchesTemplate tol d t = true ↔ d.toNat ≤ t + tol ∧ t ≤ d.toNat + tol :=
  decide_eq_true_iff

/-- Settles O33: the two inequalities of the model bound the distance from either side. -/
theorem toleranceBoundary : Obligations.ToleranceBoundary := by
  refine ⟨fun tol d t => ?_, fun tol d t => ⟨fun hat => ?_, fun hbeyond => ?_⟩⟩
  · rw [matchesTemplate_iff]
    omega
  · rw [matchesTemplate_iff]
    omega
  · rw [Bool.eq_false_iff, ne_eq, matchesTemplate_iff]
    omega

/-- A duration matches the template it is equal to, whatever the tolerance (R117). -/
theorem matchesTemplate_of_eq {d : Word} {t : Nat} (h : d.toNat = t) (tol : Nat) : matchesTemplate tol d t = true :=
  (matchesTemplate_iff tol d t).2 (by omega)

/-- A duration does not match a template that its own value is apart from (R117, R124). -/
theorem not_matchesTemplate_of_apart {tol t : Nat} {d : Word} (h : apart tol d.toNat t) :
    ¬matchesTemplate tol d t = true := by
  rw [matchesTemplate_iff]
  obtain h | h := h <;> omega

/-! ### One pair -/

section
variable {r : ProtoRow} {delay tol : Nat} {h l : Word}

/-- Both components match the zero template (R119). -/
theorem pairBit_of_zero (hh : matchesTemplate tol h (delay * r.zeroHigh.toNat) = true)
    (hl : matchesTemplate tol l (delay * r.zeroLow.toNat) = true) : pairBit r delay tol h l = some false := by
  simp [pairBit, hh, hl]

/-- A component does not match the zero template, and both match the one template (R119). -/
theorem pairBit_of_one
    (hzero : ¬(matchesTemplate tol h (delay * r.zeroHigh.toNat) = true ∧
      matchesTemplate tol l (delay * r.zeroLow.toNat) = true))
    (hh : matchesTemplate tol h (delay * r.oneHigh.toNat) = true)
    (hl : matchesTemplate tol l (delay * r.oneLow.toNat) = true) : pairBit r delay tol h l = some true := by
  simp only [pairBit, Bool.and_eq_true, if_neg hzero, hh, hl, and_self, if_true]
end

/-- Settles O37: 32550 / 31 is 1050, 70 percent of it 735, and the pair is the zero template itself. -/
theorem workedExampleDecodesZero : Obligations.WorkedExampleDecodesZero := by
  intro r hr
  simp only [ProtoRow.isSourceRow1, Bool.and_eq_true, beq_iff_eq] at hr
  obtain ⟨⟨⟨-, hsyncLow⟩, hzeroHigh⟩, hzeroLow⟩ := hr
  refine ⟨by rw [frameDelay, hsyncLow]; rfl, rfl, pairBit_of_zero ?_ ?_⟩
  · exact matchesTemplate_of_eq (by rw [hzeroHigh]; rfl) 735
  · exact matchesTemplate_of_eq (by rw [hzeroLow]; rfl) 735

/-! ### The walk -/

section
variable {r : ProtoRow} {delay tol : Nat} {buf : Vector Word 68} {h l : Word} {i : Nat}

/-- A pair with a bit appends it on the right (R119). -/
theorem walkPairs_bit {b : Bool} (hh : buf[i]? = some h) (hl : buf[i + 1]? = some l)
    (hb : pairBit r delay tol h l = some b) (k code : Nat) :
    walkPairs r delay tol buf (k + 1) i code = walkPairs r delay tol buf k (i + 2) (2 * code + b.toNat) := by
  simp only [walkPairs, hh, hl, hb]

/-- A pair without a bit ends the walk (R119, R121). -/
theorem walkPairs_noBit (hh : buf[i]? = some h) (hl : buf[i + 1]? = some l) (hb : pairBit r delay tol h l = none)
    (k code : Nat) : walkPairs r delay tol buf (k + 1) i code = .mismatch := by
  simp only [walkPairs, hh, hl, hb]

/-- Pairs that all have bits spell the code (R119). -/
theorem walkPairs_bits (bits : List Bool) (i code : Nat)
    (hbits : ∀ k b, bits[k]? = some b → ∃ h l, buf[i + 2 * k]? = some h ∧ buf[i + 2 * k + 1]? = some l ∧
      pairBit r delay tol h l = some b) :
    walkPairs r delay tol buf bits.length i code = .code (bits.foldl (fun c b => 2 * c + b.toNat) code) := by
  induction bits generalizing i code with
  | nil => rfl
  | cons a bits ih =>
    obtain ⟨h, l, hh, hl, hb⟩ := hbits 0 a rfl
    rw [List.length_cons, walkPairs_bit (i := i) hh hl hb, List.foldl_cons]
    refine ih (i + 2) _ fun k b hk => ?_
    rw [show i + 2 + 2 * k = i + 2 * (k + 1) by ring]
    exact hbits (k + 1) b hk

/-- One pair without a bit, wherever it stands, spoils the frame (R121). -/
theorem walkPairs_mismatch {j k : Nat} (hj : j < k) (hh : buf[i + 2 * j]? = some h) (hl : buf[i + 2 * j + 1]? = some l)
    (hb : pairBit r delay tol h l = none) (hin : i + 2 * k ≤ 68) (code : Nat) :
    walkPairs r delay tol buf k i code = .mismatch := by
  induction j generalizing i k code with
  | zero =>
    obtain ⟨k, rfl⟩ := Nat.exists_eq_succ_of_ne_zero hj.ne'
    exact walkPairs_noBit hh hl hb k code
  | succ j ih =>
    obtain ⟨k, rfl⟩ := Nat.exists_eq_succ_of_ne_zero (Nat.ne_zero_of_lt hj)
    have hfirst : buf[i]? = some buf[i] := Vector.getElem?_eq_getElem (by omega)
    have hsecond : buf[i + 1]? = some buf[i + 1] := Vector.getElem?_eq_getElem (by omega)
    cases hpair : pairBit r delay tol buf[i] buf[i + 1] with
    | none => exact walkPairs_noBit hfirst hsecond hpair k code
    | some b =>
      have hnext : i + 2 * (j + 1) = i + 2 + 2 * j := by ring
      rw [hnext] at hh hl
      rw [walkPairs_bit hfirst hsecond hpair]
      exact ih (Nat.lt_of_succ_lt_succ hj) hh hl (by omega) _
end

/-- Settles O34: the bit of a pair is its definition; the walk appends one bit a pair. -/
theorem pairWalkBuildsCode : Obligations.PairWalkBuildsCode := by
  refine ⟨fun r delay tol h l => ?_, fun r delay tol buf bits i code _ hbits => walkPairs_bits bits i code hbits⟩
  simp only [pairBit, Bool.and_eq_true]

end Sys2Proof.Machine
end

section
/-! PROOFS. What DECODE answers, by the end of its walk and the acceptance gate (R118, R120, R121, R127). -/

namespace Sys2Proof.Machine

/-- The two conditions of R120. -/
theorem gate_iff (c : Cfg) (n code : Nat) :
    gate c n code = true ↔ c.minTrans.toNat < n ∧ (c.rejectZero = false ∨ code ≠ 0) := by
  simp [gate]

/-- The end of DECODE's walk on a state: the pairs of slots 1 to N, measured by the sync in slot 0 (R115, R116, R118). -/
def frameWalk (r : ProtoRow) (n : Nat) (s : State) : Walk :=
  walkPairs r (frameDelay r s.cap.buf[0]) (frameTol (frameDelay r s.cap.buf[0]) s.cfg.tol) s.cap.buf (n / 2) 1 0

section
variable {n : Nat} {ts : Word} {s : State} {r : ProtoRow} (hr : lookup s.par.ptab s.cfg.proto = some r)
include hr

theorem decodeFrame_of_code {c : Nat} (hw : frameWalk r n s = .code c) :
    decodeFrame n ts s = .next (if gate s.cfg n c then publish c ts s else s) := by
  unfold frameWalk at hw
  simp only [decodeFrame, hr, hw]

theorem decodeFrame_of_mismatch (hw : frameWalk r n s = .mismatch) : decodeFrame n ts s = .next s := by
  unfold frameWalk at hw
  simp only [decodeFrame, hr, hw]

theorem decodeFrame_accepted {c : Nat} (hw : frameWalk r n s = .code c) (hg : gate s.cfg n c = true) :
    decodeFrame n ts s = .next (publish c ts s) := by
  rw [decodeFrame_of_code hr hw, if_pos hg]

theorem decodeFrame_turnedAway {c : Nat} (hw : frameWalk r n s = .code c) (hg : ¬gate s.cfg n c = true) :
    decodeFrame n ts s = .next s := by
  rw [decodeFrame_of_code hr hw, if_neg hg]
end

/-- A DECODE that changes the state had a row, a walk that ended with a code, and the gate's leave (R118, R120). -/
theorem decodeFrame_changed {n : Nat} {ts : Word} {s t : State} (h : decodeFrame n ts s = .next t) (hne : t ≠ s) :
    ∃ r c, lookup s.par.ptab s.cfg.proto = some r ∧ frameWalk r n s = .code c ∧ gate s.cfg n c = true ∧
      t = publish c ts s := by
  cases hr : lookup s.par.ptab s.cfg.proto with
  | none => simp [decodeFrame, hr] at h
  | some r =>
    cases hw : frameWalk r n s with
    | code c =>
      rw [decodeFrame_of_code hr hw] at h
      cases hg : gate s.cfg n c with
      | true => exact ⟨r, c, rfl, hw, hg, by simpa [hg] using h.symm⟩
      | false => exact absurd (by simpa [hg] using h.symm) hne
    | mismatch =>
      rw [decodeFrame_of_mismatch hr hw] at h
      cases h
      exact absurd rfl hne
    | outside =>
      unfold frameWalk at hw
      simp [decodeFrame, hr, hw] at h

/-- Settles O35: `gate` decides between the two outcomes of a walk that ends with a code. -/
theorem acceptanceGate : Obligations.AcceptanceGate := by
  refine fun n ts s r c hr hw => ⟨fun hn hzero => ?_, fun hgate => ?_, rfl, rfl⟩
  · exact decodeFrame_accepted hr hw ((gate_iff _ _ _).2 ⟨hn, hzero⟩)
  · refine decodeFrame_turnedAway hr hw fun hg => ?_
    obtain ⟨hn, hzero⟩ := (gate_iff _ _ _).1 hg
    obtain hfew | ⟨hreject, hc⟩ := hgate
    · exact Nat.not_le_of_lt hn hfew
    · simp [hreject, hc] at hzero

/-- A published code has a bit a pair, so at most 33 (R122). -/
theorem toNat_ofNat_of_published {n c : Nat} (hn : n ≤ 66) (hc : c < 2 ^ (n / 2)) :
    (BitVec.ofNat 64 c).toNat = c ∧ c < 2 ^ 33 := by
  have hc33 : c < 2 ^ 33 := Nat.lt_of_lt_of_le hc (Nat.pow_le_pow_right (by decide) (by omega))
  exact ⟨(BitVec.toNat_ofNat c 64).trans (Nat.mod_eq_of_lt (hc33.trans (by decide))), hc33⟩

/-- Settles O36: a pair without a bit spoils the walk, and only the gate lets a code into the mailbox. -/
theorem failedDecodeIsSilent : Obligations.FailedDecodeIsSilent := by
  refine ⟨fun n ts s r k h l hn hk hr hh hl hpair => ?_, fun n ts s t ht hfew => ?_,
    fun n ts s t hn ht hne hreject => ?_⟩
  · have hsecond : s.cap.buf[1 + 2 * k + 1]? = some l := by rw [show 1 + 2 * k + 1 = 2 + 2 * k by ring]; exact hl
    exact decodeFrame_of_mismatch hr (walkPairs_mismatch hk hh hsecond hpair (by omega) 0)
  · obtain rfl | ⟨c, -, hg, -⟩ := decodeFrame_cases ht
    · rfl
    · exact absurd ((gate_iff _ _ _).1 hg).1 (Nat.not_lt_of_le hfew)
  · obtain rfl | ⟨c, hc, hg, rfl⟩ := decodeFrame_cases ht
    · exact absurd rfl hne
    · obtain ⟨-, hkept | hc0⟩ := (gate_iff _ _ _).1 hg
      · cases hreject.symm.trans hkept
      · intro hcode
        exact hc0 ((toNat_ofNat_of_published hn hc).1.symm.trans (congrArg BitVec.toNat hcode))

/-- Settles O32: neither the walk nor the gate reads the mailbox, and what is published replaces it whole. -/
theorem decodeWritesOnlyMailbox : Obligations.DecodeWritesOnlyMailbox := by
  refine ⟨fun n ts s t hn ht => ?_, fun n ts s t m ht hne => ?_, fun n ts s hinv hrx hn => ?_⟩
  · obtain rfl | ⟨c, hc, -, rfl⟩ := decodeFrame_cases ht
    · exact .inl rfl
    · obtain ⟨hval, hc33⟩ := toNat_ofNat_of_published hn hc
      exact .inr ⟨BitVec.ofNat 64 c, hval.symm ▸ hc33, rfl⟩
  · obtain ⟨r, c, hr, hw, hg, rfl⟩ := decodeFrame_changed ht hne
    exact decodeFrame_accepted (s := { s with mb := m }) hr hw hg
  · obtain ⟨hrow, -⟩ := hinv.rxConfig hrx
    obtain ⟨r, hr⟩ := Option.isSome_iff_exists.1 hrow
    exact decodeFrame_next hr (Nat.le_succ_of_le hn)

end Sys2Proof.Machine
end

section
/-! PROOFS. The round trip: the intervals of a sent frame stored one by one, and decoded at the closing sync (R124). -/

namespace Sys2Proof.Machine

/-! ### The intervals a frame is made of -/

/-- The microseconds of a level held for `m` scaled units (R85). -/
def pulse (u : Nat) (m : BitVec 8) : Word := (waveSegment true m u).dur

theorem pulse_toNat {u : Nat} (hu : u ≤ 65535) (m : BitVec 8) : (pulse u m).toNat = m.toNat * (u * 3) :=
  (waveSegment_dur_toNat true m hu).trans (Nat.mul_assoc _ _ _)

/-- The high multiplier of a bit (R97). -/
def bitHigh (r : ProtoRow) (b : Bool) : BitVec 8 := if b then r.oneHigh else r.zeroHigh

/-- The low multiplier of a bit (R97). -/
def bitLow (r : ProtoRow) (b : Bool) : BitVec 8 := if b then r.oneLow else r.zeroLow

/-- The intervals between the opening and the closing sync low: a pair a bit, and the sync high (R97). -/
def dataIntervals (r : ProtoRow) (u : Nat) (bits : List Bool) : List Word :=
  bits.flatMap (fun b => [pulse u (bitHigh r b), pulse u (bitLow r b)]) ++ [pulse u r.syncHigh]

theorem bitWave_durs (r : ProtoRow) (u : Nat) (b : Bool) :
    (bitWave r u b).map Segment.dur = [pulse u (bitHigh r b), pulse u (bitLow r b)] := by
  cases b <;> rfl

/-- A frame of protocols 1 to 5 as a receiver measures it (R97, R124). -/
theorem frame_durs (r : ProtoRow) (u : Nat) (bits : List Bool) :
    (frame false r u bits).map Segment.dur = dataIntervals r u bits ++ [pulse u r.syncLow] := by
  simp [frame, dataIntervals, List.map_flatMap, bitWave_durs, syncWave, wave, pulse, waveSegment]

theorem dataIntervals_length (r : ProtoRow) (u : Nat) (bits : List Bool) :
    (dataIntervals r u bits).length = 2 * bits.length + 1 := by
  simp [dataIntervals, List.length_flatMap, Nat.mul_comm]

/-- Bit k lies in the intervals 2k and 2k+1. -/
theorem dataIntervals_getElem? {r : ProtoRow} {u : Nat} {bits : List Bool} {k : Nat} {b : Bool} (h : bits[k]? = some b) :
    (dataIntervals r u bits)[2 * k]? = some (pulse u (bitHigh r b)) ∧
      (dataIntervals r u bits)[2 * k + 1]? = some (pulse u (bitLow r b)) := by
  induction bits generalizing k with
  | nil => cases h
  | cons a bits ih =>
    cases k with
    | zero => cases h; exact ⟨rfl, rfl⟩
    | succ k => exact ih h

/-- A duration that an EDGE step takes for a data half-pulse (R106). -/
def IsData (d : Word) : Prop := 300 < d.toNat ∧ d.toNat ≤ 15000

/-- In a receivable row every interval up to the closing sync low is data (R88). -/
theorem dataIntervals_isData {r : ProtoRow} {u : Nat} (hu : u ≤ 65535) (hrec : receivable r (u * 3))
    (bits : List Bool) : ∀ d ∈ dataIntervals r u bits, IsData d := by
  obtain ⟨hdata, -⟩ := hrec
  have hpulse : ∀ m ∈ [r.zeroHigh, r.zeroLow, r.oneHigh, r.oneLow, r.syncHigh], IsData (pulse u m) := fun m hm => by
    rw [IsData, pulse_toNat hu]
    exact hdata m hm
  intro d hd
  simp only [dataIntervals, List.mem_append, List.mem_flatMap, List.mem_cons, List.not_mem_nil, or_false] at hd
  obtain ⟨b, -, rfl | rfl⟩ | rfl := hd
  · exact hpulse _ (by cases b <;> simp [bitHigh])
  · exact hpulse _ (by cases b <;> simp [bitLow])
  · exact hpulse _ (by simp)

/-- The pair sent for a bit is that bit again (R119, R124). -/
theorem pairBit_pulse {r : ProtoRow} {u tol : Nat} (hu : u ≤ 65535) (hdist : distinguishable r (u * 3) tol) (b : Bool) :
    pairBit r (u * 3) tol (pulse u (bitHigh r b)) (pulse u (bitLow r b)) = some b := by
  have hval : ∀ m, (pulse u m).toNat = u * 3 * m.toNat := fun m => (pulse_toNat hu m).trans (Nat.mul_comm _ _)
  have hown : ∀ m, matchesTemplate tol (pulse u m) (u * 3 * m.toNat) = true :=
    fun m => matchesTemplate_of_eq (hval m) tol
  cases b with
  | false => exact pairBit_of_zero (hown _) (hown _)
  | true =>
    refine pairBit_of_one (fun ⟨hhigh, hlow⟩ => ?_) (hown _) (hown _)
    obtain h | h := hdist
    · exact not_matchesTemplate_of_apart (by rw [hval]; exact h) hhigh
    · exact not_matchesTemplate_of_apart (by rw [hval]; exact h) hlow

/-! ### The code the bits spell -/

/-- Appending the bits of a code, most significant first, is the code (R92, R119). -/
theorem foldl_codeBits (w : Nat) (c : Code) (a : Nat) :
    (codeBits w c).foldl (fun c b => 2 * c + b.toNat) a = a * 2 ^ w + c.toNat % 2 ^ w := by
  induction w generalizing a with
  | zero => simp [codeBits, Nat.mod_one]
  | succ w ih =>
    have htop : (c.getLsbD w).toNat = c.toNat / 2 ^ w % 2 := Nat.toNat_testBit _ _
    rw [codeBits, List.foldl_cons, ih, htop, Nat.mod_pow_succ]
    ring

theorem foldl_codeBits_of_lt {w : Nat} {c : Code} (h : c.toNat < 2 ^ w) :
    (codeBits w c).foldl (fun c b => 2 * c + b.toNat) 0 = c.toNat := by
  rw [foldl_codeBits, Nat.zero_mul, Nat.zero_add, Nat.mod_eq_of_lt h]

/-! ### What the receiver has stored -/

/-- The durations stored since the frame opened: the slots below the count (R26, R28). -/
def Capture.counted (c : Capture) : List Word := c.buf.toList.take c.changeCount.toNat

theorem Capture.buf_of_counted {c : Capture} {i : Nat} {d : Word} (h : c.counted[i]? = some d) : c.buf[i]? = some d := by
  rw [Capture.counted, List.getElem?_take] at h
  split at h
  · simpa using h
  · cases h

/-- With the count at 1, slot 0 is all there is. -/
theorem Capture.counted_of_one {c : Capture} (h : c.changeCount = 1#7) : c.counted = [c.buf[0]] := by
  simp [Capture.counted, h, List.take_add_one]

/-- A data half-pulse is appended (R110). -/
theorem dataEdge_counted {s : State} (room : s.cap.changeCount.toNat < 67) (d ts : Word) :
    (dataEdge d ts s).cap.changeCount.toNat = s.cap.changeCount.toNat + 1 ∧
      (dataEdge d ts s).cap.counted = s.cap.counted ++ [d] := by
  have hnext : (s.cap.changeCount + 1#7).toNat = s.cap.changeCount.toNat + 1 := by
    simp only [BitVec.toNat_add, BitVec.toNat_ofNat]
    omega
  have hin : s.cap.changeCount.toNat < s.cap.buf.toList.length := by
    rw [Vector.length_toList]
    omega
  rw [dataEdge_stored room]
  refine ⟨hnext, ?_⟩
  simp only [Capture.counted, hnext, Vector.toList_set, List.take_add_one, List.take_set_of_le le_rfl,
    List.getElem?_set_self hin, Option.toList_some]

theorem edgeDuration_lastTs_add (s : State) (d : Word) : edgeDuration (s.cap.lastTs + d) s = d := by
  rw [edgeDuration, BitVec.add_comm, BitVec.add_sub_cancel]

/-- An interval of data is one data half-pulse (R106). -/
theorem feedIntervals_cons_data {d : Word} (hd : IsData d) (ds : List Word) (s : State) :
    feedIntervals (d :: ds) s = feedIntervals ds (dataEdge d (s.cap.lastTs + d) s) := by
  obtain ⟨above, data⟩ := hd
  rw [← edgeDuration_lastTs_add s d] at above data
  rw [feedIntervals, edge_data above data, andThen_next, edgeDuration_lastTs_add]

/-- A data half-pulse touches the capture state only (R110). -/
theorem dataEdge_frame (d ts : Word) (s : State) : dataEdge d ts s = { s with cap := (dataEdge d ts s).cap } := by
  unfold dataEdge
  split <;> rfl

/-- Data half-pulses with room for all of them are appended one by one, and touch the capture state only (R110). -/
theorem feedIntervals_data {ds : List Word} (hdata : ∀ d ∈ ds, IsData d) (rest : List Word) {s : State}
    (room : s.cap.changeCount.toNat + ds.length ≤ 67) :
    ∃ c : Capture, feedIntervals (ds ++ rest) s = feedIntervals rest { s with cap := c } ∧
      c.changeCount.toNat = s.cap.changeCount.toNat + ds.length ∧ c.counted = s.cap.counted ++ ds := by
  induction ds generalizing s with
  | nil => exact ⟨s.cap, rfl, rfl, (List.append_nil _).symm⟩
  | cons d ds ih =>
    obtain ⟨hd, hds⟩ := List.forall_mem_cons.1 hdata
    rw [List.length_cons] at room
    obtain ⟨hcount, hcounted⟩ := dataEdge_counted (s := s) (by omega) d (s.cap.lastTs + d)
    obtain ⟨c, hfeed, hlen, hstored⟩ := ih hds (s := dataEdge d (s.cap.lastTs + d) s) (by omega)
    refine ⟨c, ?_, by rw [hlen, hcount, List.length_cons]; ring, by rw [hstored, hcounted, List.append_assoc]; rfl⟩
    rw [List.cons_append, feedIntervals_cons_data hd, hfeed, dataEdge_frame]

/-- A sync interval opens the next frame on the state that DECODE leaves (R109). -/
theorem feedIntervals_singleton_sync {d : Word} (hd : 15000 < d.toNat) {s u : State} (long : 2 < s.cap.changeCount.toNat)
    (hu : decodeFrame (s.cap.changeCount.toNat - 1) (s.cap.lastTs + d) (countSync s) = .next u) :
    feedIntervals [d] s = .next (openFrame d (s.cap.lastTs + d) u) := by
  have hdur := edgeDuration_lastTs_add s d
  rw [feedIntervals, edge_sync_decoded (by rw [hdur]; exact hd) long hu, andThen_next, hdur]
  rfl

/-! ### The round trip -/

section
variable {s : State} {r : ProtoRow} {u : Nat} {sync : Word} (hu : u ≤ 65535) (hrec : receivable r (u * 3))
  (hdist : distinguishable r (u * 3) (frameTol (u * 3) s.cfg.tol)) (hsync : sync.toNat = r.syncLow.toNat * (u * 3))
include hu hrec hdist hsync

/-- A capture state that holds a sync low and the data of a frame decodes to what the frame's bits spell (R124). -/
theorem frameWalk_of_counted {bits : List Bool} (hcounted : s.cap.counted = sync :: dataIntervals r u bits) :
    frameWalk r (2 * bits.length + 1) s = .code (bits.foldl (fun c b => 2 * c + b.toNat) 0) := by
  have hslot {i : Nat} {d : Word} (hi : (sync :: dataIntervals r u bits)[i]? = some d) : s.cap.buf[i]? = some d :=
    Capture.buf_of_counted (hcounted ▸ hi)
  have hlow : 0 < r.syncLow.toNat := Nat.pos_of_mul_pos_right (Nat.zero_lt_of_lt hrec.2)
  have hfirst : s.cap.buf[0] = sync := Option.some.inj (hslot (i := 0) rfl)
  have hdelay : frameDelay r s.cap.buf[0] = u * 3 := by rw [frameDelay, hfirst, hsync, Nat.mul_div_cancel_left _ hlow]
  have hpairs : (2 * bits.length + 1) / 2 = bits.length := by omega
  rw [frameWalk, hdelay, hpairs]
  refine walkPairs_bits bits 1 0 fun k b hk => ?_
  obtain ⟨hhigh, hlow⟩ := dataIntervals_getElem? (r := r) (u := u) hk
  rw [Nat.add_comm 1]
  exact ⟨_, _, hslot hhigh, hslot hlow, pairBit_pulse hu hdist b⟩

/-- The sync low that closes a stored frame publishes the frame's code and opens the next frame (R109, R120, R124). -/
theorem feedIntervals_syncLow_publishes {b : Nat} {code : Code} (hr : lookup s.par.ptab s.cfg.proto = some r)
    (hcode : code.toNat < 2 ^ b) (hgate : gate s.cfg (2 * b + 1) code.toNat = true)
    (hcounted : s.cap.counted = sync :: dataIntervals r u (codeBits b code)) (hb : 1 ≤ b)
    (hcount : s.cap.changeCount.toNat = 2 * b + 2) :
    feedIntervals [pulse u r.syncLow] s =
      .next (openFrame (pulse u r.syncLow) (s.cap.lastTs + pulse u r.syncLow)
        (publish code.toNat (s.cap.lastTs + pulse u r.syncLow) (countSync s))) := by
  have hwalk := frameWalk_of_counted (s := countSync s) hu hrec hdist hsync hcounted
  rw [codeBits_length, foldl_codeBits_of_lt hcode] at hwalk
  have hclosing : 15000 < (pulse u r.syncLow).toNat := (pulse_toNat hu _).symm ▸ hrec.2
  refine feedIntervals_singleton_sync hclosing (by omega) ?_
  rw [hcount]
  exact decodeFrame_accepted (s := countSync s) hr hwalk hgate
end

/-- Settles O38: the frame's data is appended to the opening sync, and the closing sync publishes what is stored. -/
theorem sentFrameIsDecoded : Obligations.SentFrameIsDecoded := by
  intro s r u b code _ _ _ hr _ hu hrec hdist hb hb32 hgate hcode hne hcount hslot0
  rw [Nat.mul_assoc] at hslot0 ⊢
  have hlen : (dataIntervals r u (codeBits b code)).length = 2 * b + 1 := by
    rw [dataIntervals_length, codeBits_length]
  have hone : s.cap.changeCount.toNat = 1 := by rw [hcount]; rfl
  have hpass : gate s.cfg (2 * b + 1) code.toNat = true :=
    (gate_iff _ _ _).2 ⟨hgate, .inr fun h0 => hne (BitVec.eq_of_toNat_eq h0)⟩
  obtain ⟨c, hfeed, hlast, hcounted⟩ := feedIntervals_data (dataIntervals_isData hu hrec (codeBits b code))
    [pulse u r.syncLow] (s := s) (by omega)
  rw [Capture.counted_of_one hcount] at hcounted
  rw [frame_durs, hfeed, feedIntervals_syncLow_publishes (s := { s with cap := c }) hu hrec hdist hslot0 hr hcode hpass
    hcounted hb (by simp only; omega)]
  refine ⟨_, rfl, ?_, rfl, ?_⟩
  · simp
  · simpa using pulse_toNat hu r.syncLow

end Sys2Proof.Machine
end

section
/-! PROOFS. POLL, and who writes the mailbox and the poll result (R126, R129). -/

namespace Sys2Proof.Machine

/-- POLL moves the mailbox into the poll result (R126). -/
theorem exec_poll_idle {s : State} (hb : s.busy = false) :
    exec .poll s = .next (setErr .ok { s with poll := s.mb, mb := CodeSlot.empty }) :=
  runCommand_ok (body := pollBody) hb rfl

/-- The mailbox is all 0 while receive is disabled and while nothing is pending (R129, R15 I4). -/
theorem State.Inv.mb_eq_empty {s : State} (h : s.Inv) (hempty : s.rxEn = false ∨ s.mb.valid = false) :
    s.mb = CodeSlot.empty := by
  obtain hrx | hvalid := hempty
  · exact (h.rxOff hrx).2
  · exact h.mailbox.1 hvalid

/-- Settles O15: each clause is the one next state of POLL, whose mailbox is empty. -/
theorem pollRule : Obligations.PollRule := by
  refine ⟨decode_encode .poll, fun _ => exec_busy .poll, fun s h hb => h.not_receiving (h.busyTx hb),
    fun _ => exec_poll_idle, fun s h hb hempty => ⟨_, exec_poll_idle hb, h.mb_eq_empty hempty⟩, fun s t hb ht => ?_,
    fun s hb hmb => ⟨_, exec_poll_idle hb, ?_⟩⟩
  · cases (exec_poll_idle hb).symm.trans ht
    exact ⟨_, exec_poll_idle hb, rfl⟩
  · refine ⟨?_, ?_, ?_, ?_, statusImage_mbValid _⟩
    · change 0#31 ++ BitVec.ofBool s.mb.valid = 1#32
      rw [hmb]; rfl
    · change codeLo s.mb.code = 5#32
      rw [hmb]; rfl
    · change codeHi s.mb.code = 0#32
      rw [hmb]; rfl
    · exact congrArg CodeSlot.ts hmb

/-! ### The writers of the mailbox -/

/-- The commands that clear the mailbox: the two that change RX_EN where they change it, and POLL (R103, R104, R126). -/
def ClearsMailbox (i : Instr) (s : State) : Prop :=
  (i = .enableRx ∧ s.rxEn = false) ∨ (i = .disableRx ∧ s.rxEn = true) ∨ i = .poll

theorem enableRxBody_mb {s t : State} (h : enableRxBody s = .ok t) :
    t.mb = s.mb ∨ (t.mb = CodeSlot.empty ∧ s.rxEn = false) := by
  obtain ⟨htx, rfl | ⟨-, -, rfl⟩⟩ := enableRxBody_ok h
  · exact .inl rfl
  · cases hrx : s.rxEn with
    | false => exact .inr ⟨rfl, rfl⟩
    | true =>
      have hsame : s = clearRx { s with rxEn := true } := by simpa [enableRxBody, htx, hrx] using h
      exact .inl (congrArg State.mb hsame).symm

theorem disableRxBody_mb {s t : State} (h : disableRxBody s = .ok t) :
    t.mb = s.mb ∨ (t.mb = CodeSlot.empty ∧ s.rxEn = true) := by
  unfold disableRxBody at h
  split at h <;> cases h
  · exact .inr ⟨rfl, ‹_›⟩
  · exact .inl rfl

/-- An accepted command leaves the mailbox or is one of those that clear it. -/
theorem commandBody_mb {i : Instr} {s t : State} (h : commandBody i s = .ok t) :
    t.mb = s.mb ∨ (t.mb = CodeSlot.empty ∧ ClearsMailbox i s) := by
  cases i with
  | nop => cases h; exact .inl rfl
  | enableTx => obtain ⟨-, rfl | rfl⟩ := enableTxBody_ok h <;> exact .inl rfl
  | disableTx => obtain rfl | rfl := disableTxBody_ok h <;> exact .inl rfl
  | sendCode | sendBits =>
    obtain ⟨-, -, r, -, rfl⟩ := startSend_ok h
    exact .inl (by rw [txStart_frame])
  | enableRx => exact (enableRxBody_mb h).imp_right fun ⟨hmb, hrx⟩ => ⟨hmb, .inl ⟨rfl, hrx⟩⟩
  | disableRx => exact (disableRxBody_mb h).imp_right fun ⟨hmb, hrx⟩ => ⟨hmb, .inr (.inl ⟨rfl, hrx⟩)⟩
  | poll => cases h; exact .inr ⟨rfl, .inr (.inr rfl)⟩

theorem exec_mb {i : Instr} {s t : State} (h : exec i s = .next t) :
    t.mb = s.mb ∨ (t.mb = CodeSlot.empty ∧ ClearsMailbox i s) := by
  rw [exec_eq_commandBody] at h
  exact runCommand_elim (P := fun u => u.mb = s.mb ∨ (u.mb = CodeSlot.empty ∧ ClearsMailbox i s)) h (.inl rfl)
    (fun _ _ hb => commandBody_mb hb) fun _ _ hu => hu

/-- An access leaves the mailbox or issues a command that clears it. -/
theorem access_mb {a : Access} {s t : State} (h : access a s = .next t) :
    t.mb = s.mb ∨ (t.mb = CodeSlot.empty ∧ ∃ i, issued s.par (.access a) = some i ∧ ClearsMailbox i s) := by
  obtain ⟨i, hi, hx⟩ | ⟨-, -, off, v, r, -, -, rfl⟩ | ht := access_eq_next_cases h
  · exact (exec_mb hx).imp_right fun ⟨hmb, hclear⟩ => ⟨hmb, i, hi, hclear⟩
  · exact .inl rfl
  · exact .inl (by rw [ht])

/-- An EDGE step leaves the mailbox or publishes into it (R106, R120). -/
theorem edge_mb {ts : Word} {s t : State} (h : edge ts s = .next t) : t.mb = s.mb ∨ t.mb.valid = true := by
  obtain ⟨-, rfl⟩ | ⟨-, u, rfl, ⟨-, rfl⟩ | ⟨-, hu⟩⟩ | ⟨-, -, rfl⟩ := edge_cases h
  · exact .inl rfl
  · exact .inl rfl
  · obtain rfl | ⟨c, -, -, rfl⟩ := decodeFrame_cases hu
    · exact .inl rfl
    · exact .inr rfl
  · exact .inl (by rw [dataEdge_frame])

/-- A pad change leaves the mailbox, or receive is enabled and its EDGE step publishes (R105, R129). -/
theorem padChange_mb {level : Bool} {s t : State} (h : padChange level s = .next t) :
    t.mb = s.mb ∨ (t.mb.valid = true ∧ s.rxEn = true) := by
  unfold padChange at h
  simp only at h
  split at h
  · rename_i hedge
    exact (edge_mb h).imp_right fun hvalid => ⟨hvalid, hedge.1⟩
  · cases h; exact .inl rfl

/-- Every way an event can change the mailbox (R129). -/
theorem handle_mb {e : Event} {s t : State} (h : handle e s = .next t) :
    t.mb = s.mb ∨
      (t.mb = CodeSlot.empty ∧ (e = .reset ∨ ∃ i, issued s.par e = some i ∧ ClearsMailbox i s)) ∨
      (t.mb.valid = true ∧ s.rxEn = true ∧ ∃ level, e = .pad level) := by
  cases e with
  | access a => exact (access_mb h).imp_right fun ⟨hmb, hcommand⟩ => .inl ⟨hmb, .inr hcommand⟩
  | pad level => exact (padChange_mb h).imp_right fun ⟨hvalid, hrx⟩ => .inr ⟨hvalid, hrx, level, rfl⟩
  | tick => exact .inl (by rw [tick_frame h])
  | reset => cases h; exact .inr (.inl ⟨rfl, .inl rfl⟩)

/-! ### The writers of the poll result -/

theorem access_poll {a : Access} {s t : State} (h : access a s = .next t) :
    t.poll = s.poll ∨ issued s.par (.access a) = some .poll := by
  obtain ⟨i, hi, hx⟩ | ⟨-, -, off, v, r, -, -, rfl⟩ | ht := access_eq_next_cases h
  · exact (exec_frame hx).poll.imp_right fun hpoll => hi.trans (congrArg some hpoll)
  · exact .inl rfl
  · exact .inl (by rw [ht])

/-- Every way an event can change the poll result (R30, R129). -/
theorem handle_poll {e : Event} {s t : State} (h : handle e s = .next t) :
    t.poll = s.poll ∨ e = .reset ∨ issued s.par e = some .poll := by
  cases e with
  | access a => exact (access_poll h).imp_right .inr
  | pad level => exact .inl (by rw [padChange_frame h])
  | tick => exact .inl (by rw [tick_frame h])
  | reset => exact .inr (.inl rfl)

/-- Settles O56 from what one event does to the mailbox and to the poll result. -/
theorem mailboxAndPollWriters : Obligations.MailboxAndPollWriters := by
  refine ⟨fun s t h hne => ?_, fun s t h hne => ?_, fun s h hrx => (h.rxOff hrx).2⟩
  · rw [step_eq_handle] at h
    obtain hsame | ⟨hmb, hreset | ⟨i, hi, hclear⟩⟩ | hpublished := handle_mb h
    · exact absurd hsame hne
    · exact .inl ⟨hmb, .inl hreset⟩
    · obtain ⟨rfl, hrx⟩ | ⟨rfl, hrx⟩ | rfl := hclear
      · exact .inl ⟨hmb, .inr (.inl ⟨hi, hrx⟩)⟩
      · exact .inl ⟨hmb, .inr (.inr (.inl ⟨hi, hrx⟩))⟩
      · exact .inl ⟨hmb, .inr (.inr (.inr hi))⟩
    · exact .inr hpublished
  · rw [step_eq_handle] at h
    exact (handle_poll h).resolve_left hne

end Sys2Proof.Machine
end

section
/-! PROOFS. Simultaneous events: two edges at one value of NOW, and an edge beside DISABLE_RX (R138). -/

namespace Sys2Proof.Machine

/-- An edge at the time of the last accepted one is noise (R107, R108). -/
theorem edge_at_lastTs {ts : Word} {s : State} (h : s.cap.lastTs = ts) : edge ts s = .next s :=
  edge_noise (by simp [edgeDuration, h])

/-- Settles O39: a first edge that is noise leaves the state it is noise in, any other one is the last accepted. -/
theorem secondEdgeAtSameTimeIsNoise : Obligations.SecondEdgeAtSameTimeIsNoise := by
  intro ts s t h
  obtain above | noise := Nat.lt_or_ge 300 (edgeDuration ts s).toNat
  · exact edge_at_lastTs (edge_lastTs above h)
  · have hsame : edge ts s = .next s := edge_noise noise
    cases hsame.symm.trans h
    exact hsame

/-- DISABLE_RX discards all that a pad change can have received: of it only the pad's level stays (R104, R105). -/
theorem exec_disableRx_after_padChange {level : Bool} {s t : State} (hb : s.busy = false) (hrx : s.rxEn = true)
    (h : padChange level s = .next t) :
    exec .disableRx t =
      .next (setErr .ok (clearRx { s with rxEn := false, pin := { s.pin with inp := level } })) := by
  rw [padChange_frame h]
  exact exec_disableRx_enabled hb hrx

/-- Settles O40: the receive state is cleared either way, and a pad change after DISABLE_RX is no EDGE event. -/
theorem edgeAndDisableRxCommute : Obligations.EdgeAndDisableRxCommute := by
  intro level s h hrx
  have hb := h.not_busy (h.not_transmitting hrx)
  obtain ⟨u, hu, -⟩ := padChange_inv h level
  rw [hu, andThen_next, exec_disableRx_enabled hb hrx, andThen_next]
  exact ⟨_, exec_disableRx_after_padChange hb hrx hu, padChange_not_receiving rfl level⟩

end Sys2Proof.Machine
end

section
/-! PROOFS. Reset, the registers it leaves, and two instances on one wire (R48, R149, R161). -/

namespace Sys2Proof.Machine

/-- A cleared capture buffer holds 0 in each slot, and reads 0 outside them (R48, R103). -/
theorem cleared_buf_getD (i : Nat) : Capture.cleared.buf[i]?.getD 0#32 = 0#32 := by
  rw [Capture.cleared, Vector.getElem?_replicate]
  split <;> rfl

/-- After a reset every register below the table reads 0, but the filter's defaults and the pad's level (R48). -/
theorem readReg_resetStep {r : Reg} (hr : r.offset < 0x300) (hfilter : r ≠ .cfgFilter) (hpin : r ≠ .pinStat)
    (s : State) : readReg r (resetStep s) = 0#32 := by
  cases r with
  | cfgFilter => exact absurd rfl hfilter
  | pinStat => exact absurd rfl hpin
  | capbuf i => exact cleared_buf_getD i
  | ptab p f =>
    simp only [Reg.offset] at hr
    omega
  | status => simp [readReg, statusImage, State.reset, CodeSlot.empty, ErrCode.code]
  | pollStat => simp [readReg, State.reset, CodeSlot.empty]
  | txCodeHi | pollCodeHi => exact BitVec.extractLsb'_zero
  | _ => rfl

/-- After a reset the filter holds its defaults: MIN_TRANS 6 and REJECT_ZERO 1 (R40, R48). -/
theorem readReg_cfgFilter_resetStep (s : State) : readReg .cfgFilter (resetStep s) = 0x00000106#32 := by
  simp [readReg, State.reset, Cfg.reset]

/-- Settles O53: the fields are those of the reset state, and the registers show them or are reserved. -/
theorem resetEventRule : Obligations.ResetEventRule := by
  refine ⟨rfl, fun s => ⟨resetStep s, rfl, rfl, rfl, rfl, rfl, rfl, rfl, rfl, rfl, rfl, rfl, rfl, rfl, rfl,
    (regRead_offset (r := .cfgFilter) rfl _).trans (readReg_cfgFilter_resetStep s),
    fun off hoff hfilter hpin => ?_⟩⟩
  cases hr : regAt off with
  | none => exact regRead_of_none hr _
  | some r =>
    obtain ⟨hwf, rfl⟩ := regAt_eq_some hr
    rw [regRead_offset hwf]
    exact readReg_resetStep hoff (fun h => hfilter (congrArg Reg.offset h)) (fun h => hpin (congrArg Reg.offset h)) s

/-- A step of the second instance is its own step on the event that the wire puts before it (R161). -/
theorem wireTurn_second (e : Event) (p : Pair) :
    wireTurn (.second e) p =
      andThen (handle (wireEvent p.first e) { p.second with busResp := none }) fun b => .next { p with second := b } :=
  rfl

/-- Settles O52: a transmitting instance does not listen, and a driven wire puts the driver's level on the other pad. -/
theorem loopbackNeedsTwoInstances : Obligations.LoopbackNeedsTwoInstances := by
  refine ⟨fun s level h htx => padChange_not_receiving (h.not_receiving htx).1 level,
    fun p level hoe hrx hlevel => ?_, fun p level hoe => ?_⟩
  · have hedge := padChange_transition (s := { p.second with busResp := none }) hrx hlevel
    rw [wireTurn_second, wireEvent_driven hoe, handle, hedge]
  · rw [wireTurn_second, wireEvent_undriven hoe]

end Sys2Proof.Machine
end
